-- ==== Sys2Proof/Word.lean ====
section
/-! DEFINITION. The word types of QRCORE: 8-bit field elements and DMEM bytes, 32-bit registers (R13, R14 of 00_scope.md). -/

namespace Sys2Proof

/-- A byte of DMEM and an element of GF(2^8). -/
abbrev Byte := BitVec 8

/-- A register and a command word: "All registers are 32 bits wide" (10_state.md section 2). -/
abbrev Word := BitVec 32

/-- A value that pseudocode integers give a 32-bit register: "taken mod 2^N" (R14). -/
abbrev word (n : Nat) : Word := BitVec.ofNat 32 n

/-- `zext_32(v)` of a field element (R14). -/
abbrev zext (b : Byte) : Word := b.setWidth 32

end Sys2Proof
end

