-- ==== Sys2Proof/Config.lean ====
section
/-! DEFINITION. The parameters an implementation fixes (R12 of 00_scope.md) and the one free value, the command latency. -/

namespace Sys2Proof

/-- The two readings of the dark percentage in penalty rule D (R217). -/
inductive BalanceMode where
  | exact         -- BALANCE_MODE = EXACT
  | floorPercent  -- BALANCE_MODE = FLOOR_PERCENT
deriving DecidableEq, Repr

namespace Config

/-- DMEM_SIZE (R12, R61, D6): this spec's value. DESIGN CHOICE of the value, log 4. -/
def dmemSize : Nat := 4096

/-- RS_MAX_DEGREE (R12, D15): this spec's value. DESIGN CHOICE of the value, log 4. -/
def rsMaxDegree : Nat := 30

/-- DARK_MODULE_AT_TEMPLATE (R12, R167, D20): this spec's value. DESIGN CHOICE of the value, log 4. -/
def darkModuleAtTemplate : Bool := true

/-- BALANCE_MODE (R12, R217, D25): this spec's value. DESIGN CHOICE of the value, log 4. -/
def balanceMode : BalanceMode := .exact

/-- The command latency (R12, R295, D31): "OPEN: finite and unbounded". A free value: how many host steps the
`n`-th accepted command waits before it completes. It has no body, so nothing can be proved of it. Log 2. -/
opaque commandLatency : Nat → Nat

end Config

end Sys2Proof
end

