-- ==== Sys2Proof/Machine/State.lean ====
section
/-! DEFINITION. The state of QRCORE as plain data (10_state.md), the reasons a step can stop, and the state after reset (R280). -/

namespace Sys2Proof.Machine

/-- Why the machine stops with a fault. Both are safe: the model stops where the hardware gives no defined value. -/
inductive Fault where
  /-- A host read or a command's source descriptor covers a DMEM byte with no value (R68, I1). Raised by
  `State.readSource` and by host DMEM reads. Safe. -/
  | dmemUnwritten
  /-- A host access outside the block's 128 KiB window (R60). Raised by `hostRead` and `hostWrite`. Safe, log 9. -/
  | offsetOutsideBlock
deriving DecidableEq, Repr

/-- Why the model takes no step. All are safe: no next state is claimed. -/
inductive Refusal where
  /-- A command with no meaning yet, refused by name in `exec`. Safe. -/
  | notModelled (mnemonic : String)
  /-- `exec` asked to complete a command while none is in flight; `step` never does (log 16). Safe. -/
  | noCommandInFlight
  /-- A register access that is not 32 bits wide and 4-aligned (R64, I3). Raised by the host accesses. Safe. -/
  | registerAccessForm
  /-- A DMEM access that is not naturally aligned or not 8, 16 or 32 bits wide (R64, I4). Safe. -/
  | dmemAccessForm
  /-- A read of matrix-window bytes that is not naturally aligned or not 8, 16 or 32 bits wide (R64, I5; log 9). Safe. -/
  | windowAccessForm
  /-- A DMEM access while BUSY (R70, R290, I6). Safe. -/
  | dmemWhileBusy
  /-- A matrix-window access while BUSY (R70, R290, I6; log 10). Safe. -/
  | windowWhileBusy
deriving DecidableEq, Repr

/-- PHASE, the working matrix's lifecycle (R32). -/
inductive Phase where
  | empty     -- 0 EMPTY: no template
  | template  -- 1 TEMPLATE: template loaded, no data placed
  | placed    -- 2 PLACED: codewords placed, no mask applied
  | final     -- 3 FINAL: one mask applied and format information written
deriving DecidableEq, Repr

/-- One module: two independent bits (R40). -/
structure Cell where
  dark : Bool
  rsv  : Bool
deriving DecidableEq, Repr

/-- The working matrix, a row after a row from the top, each from the left (R18, R40). -/
abbrev Matrix := List (List Cell)

/-- A module address (row, column) (R18). -/
abbrev Coord := Nat × Nat

/-- DMEM: the written bytes, addresses strictly rising. An address not listed has no value (R47, R68;
log 7). -/
abbrev Memory := List Host.Cell

/-- The four sub-scores PEN[k][0..3] of one candidate (R39): rules A, B, C, D. -/
structure Penalty where
  a : Word
  b : Word
  c : Word
  d : Word
deriving DecidableEq, Repr

/-- The command in flight (R46): "the accepted command word and the values that ARG0, ARG1 and ARG2 had at acceptance",
and the host steps it still waits (the model's own, log 2). -/
structure InFlight where
  word  : Word
  arg0  : Word
  arg1  : Word
  arg2  : Word
  delay : Nat
deriving DecidableEq, Repr

/-- The error conditions of R254. -/
inductive ErrorName where
  | illegal | sequence | version | level | degree | operand
  | length | range | divZero | logZero | divisor | placeExhausted
deriving DecidableEq, Repr

/-- What an error completion reports: the name, ARGIDX (0 but for E_LENGTH and E_RANGE, R27) and ERRINFO (R28). -/
structure CommandError where
  name   : ErrorName
  argIdx : BitVec 4
  info   : Word
deriving DecidableEq, Repr

/-- What the host does in one of its steps (R20, R280). Offsets are relative to QRCORE_BASE (R60, log 5), a width is in
bytes. -/
inductive HostAccess where
  | read (offset bytes : Nat)
  | write (offset bytes : Nat) (value : Word)
  | hardReset   -- the reset input is asserted and released
  | idle        -- a host step without an access to the block
deriving DecidableEq, Repr

/-- The state of the block, and the model's own fields `hostQueue`, `readData`, `latencyIndex`. -/
structure State where
  ie        : Bool             -- CTRL.IE (R22)
  done      : Bool             -- STATUS.DONE (R23)
  err       : Bool             -- STATUS.ERR (R23)
  ovf       : Bool             -- STATUS.OVF (R23)
  cmd       : Word             -- CMD (R24)
  arg0      : Word             -- ARG0 (R25)
  arg1      : Word             -- ARG1 (R25)
  arg2      : Word             -- ARG2 (R25)
  res0      : Word             -- RES0 (R26)
  res1      : Word             -- RES1 (R26)
  errCode   : BitVec 8         -- ERRCODE.CODE (R27)
  errArgIdx : BitVec 4         -- ERRCODE.ARGIDX (R27)
  errInfo   : Word             -- ERRINFO (R28)
  version   : BitVec 6         -- VERSION (R29)
  width     : BitVec 8         -- WIDTH (R30)
  level     : BitVec 2         -- LEVEL (R31)
  phase     : Phase            -- PHASE (R32)
  mask      : BitVec 4         -- MASK (R33)
  fmt       : BitVec 15        -- FMT (R34)
  capacity  : BitVec 16        -- CAPACITY (R35)
  placed    : BitVec 16        -- PLACED (R35)
  cmdCount  : Word             -- CMD_COUNT (R36)
  scored    : BitVec 8         -- SCORED (R37)
  score     : Vector Word 8    -- SCORE[k] (R38)
  pen       : Vector Penalty 8 -- PEN[k][j] (R39)
  matrix    : Matrix           -- the working matrix (R40)
  inFlight  : Option InFlight  -- the command in flight and ARG latch (R46); STATUS.BUSY is its presence (R23)
  dmem      : Memory           -- DMEM (R47)
  genCache  : List (Nat × List Byte)  -- the generator-polynomial cache, by degree (R43)
  tplCache  : List (Nat × Matrix)     -- the template prototype cache, by version (R44)
  hostQueue : List HostAccess  -- the model's own: host accesses still to be made, in issue order (log 1)
  readData  : Option Word      -- the model's own: what the last host read returned (log 1)
  latencyIndex : Nat           -- the model's own: which free latency is next (log 2)
deriving DecidableEq, Repr

/-- SCORE and PEN at reset and after TPL.LOAD: all 0 (R38, R39). -/
abbrev noScores : Vector Word 8 := #v[0, 0, 0, 0, 0, 0, 0, 0]
abbrev noPenalty : Penalty := ⟨0, 0, 0, 0⟩
abbrev noPenalties : Vector Penalty 8 :=
  #v[noPenalty, noPenalty, noPenalty, noPenalty, noPenalty, noPenalty, noPenalty, noPenalty]

/-- The machine after power-on and hardware reset (R280): DMEM unwritten, degree 1 cached, MASK = 0xF, all else 0. -/
def State.reset : State where
  ie := false
  done := false
  err := false
  ovf := false
  cmd := 0
  arg0 := 0
  arg1 := 0
  arg2 := 0
  res0 := 0
  res1 := 0
  errCode := 0
  errArgIdx := 0
  errInfo := 0
  version := 0
  width := 0
  level := 0
  phase := .empty
  mask := 0xF
  fmt := 0
  capacity := 0
  placed := 0
  cmdCount := 0
  scored := 0
  score := noScores
  pen := noPenalties
  matrix := []
  inFlight := none
  dmem := []
  genCache := [(1, [0x01, 0x01])]
  tplCache := []
  hostQueue := []
  readData := none
  latencyIndex := 0

end Sys2Proof.Machine
end

