-- ==== Sys2Proof/Machine/Ops.lean ====
section
/-! DEFINITION. The named operations over DMEM and the registers, and a command's lifecycle: acceptance, completion, and
the error completion, which is this block's "trap entry" (R250, R251, R259 of 60_exceptions.md). -/

namespace Sys2Proof.Machine

/-- What a meaning answers. -/
abbrev Result := Host.Outcome State Fault Refusal

/-! ## DMEM (R47, R61, R68) -/

/-- The byte at DMEM offset `a`, `none` when it is unwritten: "It never gives the byte a value" (R68). -/
def Memory.read : Memory → Nat → Option Byte
  | [], _ => none
  | (x, v) :: m, a => if a = x then some v else Memory.read m a

/-- Write one byte, keeping the addresses strictly rising. -/
def Memory.write : Memory → Nat → Byte → Memory
  | [], a, b => [(a, b)]
  | (x, v) :: m, a, b =>
    if a < x then (a, b) :: (x, v) :: m
    else if a = x then (a, b) :: m
    else (x, v) :: Memory.write m a b

/-- Make one byte unwritten (R281). -/
def Memory.erase : Memory → Nat → Memory
  | [], _ => []
  | (x, v) :: m, a => if a = x then m else (x, v) :: Memory.erase m a

/-- `MemRead(addr, n)` (R15): the bytes addr .. addr+n−1 in ascending order, `none` when one of them is unwritten. -/
def Memory.readBytes (m : Memory) (a : Nat) : Nat → Option (List Byte)
  | 0 => some []
  | n + 1 =>
    match m.read a, Memory.readBytes m (a + 1) n with
    | some b, some bs => some (b :: bs)
    | _, _ => none

/-- `MemWrite(addr, n, s)` (R15): the bytes of `s` at addr, addr+1, .... -/
def Memory.writeBytes (m : Memory) (a : Nat) : List Byte → Memory
  | [] => m
  | b :: bs => Memory.writeBytes (m.write a b) (a + 1) bs

/-- Make the bytes addr .. addr+n−1 unwritten (R281). -/
def Memory.eraseBytes (m : Memory) (a : Nat) : Nat → Memory
  | 0 => m
  | n + 1 => Memory.eraseBytes (m.erase a) (a + 1) n

/-- Addresses strictly rising from `lo` on, all inside DMEM. -/
def Memory.wfFrom : Nat → Memory → Bool
  | _, [] => true
  | lo, (a, _) :: m => decide (lo ≤ a) && decide (a < Config.dmemSize) && Memory.wfFrom (a + 1) m

/-- The canonical form of DMEM: addresses strictly rising and below DMEM_SIZE. An unlisted address has no value, so no
entry can equal what an unlisted address reads as. -/
def Memory.wf (m : Memory) : Bool := Memory.wfFrom 0 m

/-! ## Register fields (10_state.md) -/

/-- STATUS.BUSY: "1 from a command's acceptance until its completion" (R23), which is how long a command is in flight. -/
def State.busy (s : State) : Bool := s.inFlight.isSome

/-- PHASE's two bits (R32). -/
def Phase.code : Phase → BitVec 2
  | .empty => 0
  | .template => 1
  | .placed => 2
  | .final => 3

/-- The registers of one mask, and their update (R38, R39). -/
def perMask {α : Type} (v : Vector α 8) (k : BitVec 3) : α := v[k.toNat]'k.isLt
def setPerMask {α : Type} (v : Vector α 8) (k : BitVec 3) (x : α) : Vector α 8 := v.set k.toNat x k.isLt
/-- "for k in 0 .. 7" (R228). -/
def forEachMask {α : Type} (f : BitVec 3 → α) : Vector α 8 := #v[f 0, f 1, f 2, f 3, f 4, f 5, f 6, f 7]

/-- PEN[k][j] (R39). -/
def Penalty.get (p : Penalty) (j : Nat) : Word :=
  match j with
  | 0 => p.a
  | 1 => p.b
  | 2 => p.c
  | _ => p.d

/-- PEN[k][0] + PEN[k][1] + PEN[k][2] + PEN[k][3] (R38, R218). -/
def Penalty.total (p : Penalty) : Word := p.a + p.b + p.c + p.d

/-! ## The working matrix (R40) -/

/-- `cell(r, c)`. Coordinates outside the matrix have no cell: no rule reads one (log 15). -/
def Matrix.cell (m : Matrix) (r c : Nat) : Cell := ((m[r]?.getD [])[c]?).getD ⟨false, false⟩

/-- The matrix of width `w` whose cell (r, c) is `f r c`. -/
def Matrix.tabulate (w : Nat) (f : Nat → Nat → Cell) : Matrix :=
  (List.range w).map fun r => (List.range w).map fun c => f r c

/-- Every cell (r, c) replaced by `f r c` of it. -/
def Matrix.mapCells (m : Matrix) (f : Nat → Nat → Cell → Cell) : Matrix :=
  m.mapIdx fun r row => row.mapIdx fun c x => f r c x

/-- `cell(r, c).dark <- d`. -/
def Matrix.setDark (m : Matrix) (r c : Nat) (d : Bool) : Matrix :=
  m.modify r fun row => row.modify c fun x => { x with dark := d }

/-- The number of non-reserved modules (R35, R173). -/
def Matrix.dataModules (m : Matrix) : Nat := (m.map fun row => row.countP fun x => !x.rsv).sum

/-! ## The two caches (R43, R44): invisible, entries by rising key -/

/-- The entry of a key, if present. -/
def cacheFind {α : Type} : List (Nat × α) → Nat → Option α
  | [], _ => none
  | (x, v) :: m, k => if k = x then some v else cacheFind m k

/-- Publish an entry once: a present entry is kept ("publish-once, never invalidated", R142, R174). -/
def cachePublish {α : Type} : List (Nat × α) → Nat → α → List (Nat × α)
  | [], k, a => [(k, a)]
  | (x, v) :: m, k, a =>
    if k < x then (k, a) :: (x, v) :: m
    else if k = x then (x, v) :: m
    else (x, v) :: cachePublish m k a

/-! ## A command's lifecycle -/

/-- Acceptance (R250): CMD, the latch, BUSY = 1, DONE = ERR = 0, ERRCODE = ERRINFO = 0, "No other state changes". `delay`
is how many host steps the command waits. -/
def State.acceptWith (s : State) (delay : Nat) (w : Word) : State :=
  { s with
    cmd := w
    inFlight := some ⟨w, s.arg0, s.arg1, s.arg2, delay⟩
    done := false
    err := false
    errCode := 0
    errArgIdx := 0
    errInfo := 0 }

/-- Acceptance with the free latency (R12, R295; log 2). -/
def State.accept (s : State) (w : Word) : State :=
  { s.acceptWith (Config.commandLatency s.latencyIndex) w with latencyIndex := s.latencyIndex + 1 }

/-- Completion without an error (R251), after the rule's effects: DONE = 1, BUSY = 0, CMD_COUNT + 1 mod 2^32. -/
def State.finish (s : State) : State :=
  { s with inFlight := none, done := true, cmdCount := s.cmdCount + 1 }

/-- The error codes (R254). -/
def ErrorName.code : ErrorName → BitVec 8
  | .illegal => 0x01
  | .sequence => 0x02
  | .version => 0x03
  | .level => 0x04
  | .degree => 0x05
  | .operand => 0x06
  | .length => 0x07
  | .range => 0x08
  | .divZero => 0x09
  | .logZero => 0x0A
  | .divisor => 0x0B
  | .placeExhausted => 0x0C

/-- Error completion (R251, R253, R259): ERRCODE, ERRINFO, ERR = 1, BUSY = 0, CMD_COUNT + 1 mod 2^32, nothing else. -/
def State.raise (s : State) (e : CommandError) : State :=
  { s with
    inFlight := none
    err := true
    errCode := e.name.code
    errArgIdx := e.argIdx
    errInfo := e.info
    cmdCount := s.cmdCount + 1 }

/-- The "return" from an error (R260): a host write of 1 to STATUS.ERR. "Nothing is restored, because nothing was saved
except the report." -/
def State.returnFromError (s : State) : State := { s with err := false }

/-- A meaning's two completions. -/
def State.succeed (s : State) : Result := .next s.finish
def State.fail (s : State) (name : ErrorName) (argIdx : BitVec 4) (info : Word) : Result :=
  .next (s.raise ⟨name, argIdx, info⟩)

/-- The command being completed. `step` completes a command only while one is in flight (log 16). -/
def State.withCommand (s : State) (k : InFlight → Result) : Result :=
  match s.inFlight with
  | none => .refused .noCommandInFlight
  | some c => k c

end Sys2Proof.Machine
end

