-- ==== Sys2Proof/Machine/Operands.lean ====
section
/-! DEFINITION. Operand forms: source and destination descriptors (R65, R66 of 20_memory.md) and their checks in the order of R257,
and the level ordinal's format indicator (R220 of 44_mask.md). -/

namespace Sys2Proof.Machine

/-- A byte sequence's place in DMEM. -/
structure Span where
  addr : Nat
  len  : Nat
deriving DecidableEq, Repr

/-- A source descriptor `{len[31:16], addr[15:0]}` (R65). -/
def sourceSpan (d : Word) : Span := ⟨(d.extractLsb' 0 16).toNat, (d.extractLsb' 16 16).toNat⟩

/-- The destination address ARG2[15:0]; "ARG2[31:16] is ignored" (R66). -/
def destAddr (d : Word) : Nat := (d.extractLsb' 0 16).toNat

/-- A source descriptor's checks: its length rule (E_LENGTH), then its range (E_RANGE), with ARGIDX and the register's
value as ERRINFO (R65, R254, R257). -/
def checkSource (argIdx : BitVec 4) (minLen : Nat) (d : Word) : Except CommandError Span :=
  let sp := sourceSpan d
  if sp.len < minLen then .error ⟨.length, argIdx, d⟩
  else if sp.addr + sp.len > Config.dmemSize then .error ⟨.range, argIdx, d⟩
  else .ok sp

/-- The destination's check for a result of `n` bytes (R66): E_RANGE with ARGIDX 2. -/
def checkDest (n : Nat) (d : Word) : Except CommandError Span :=
  if destAddr d + n > Config.dmemSize then .error ⟨.range, 2, d⟩ else .ok ⟨destAddr d, n⟩

/-- Read a source's bytes, all of them before anything is written (R67). An unwritten byte is a fault (R68). -/
def State.readSource (s : State) (sp : Span) (k : List Byte → Result) : Result :=
  match s.dmem.readBytes sp.addr sp.len with
  | none => .fault .dmemUnwritten
  | some bs => k bs

/-- Write a result at its destination (R66, R67). -/
def State.writeDest (s : State) (sp : Span) (bs : List Byte) : State :=
  { s with dmem := s.dmem.writeBytes sp.addr bs }

/-- The 2-bit correction-level indicator of a level ordinal: L (0) → 1, M (1) → 0, Q (2) → 3, H (3) → 2 (R220). -/
def levelIndicator (level : BitVec 2) : BitVec 2 :=
  if level = 0 then 1 else if level = 1 then 0 else if level = 2 then 3 else 2

end Sys2Proof.Machine
end

