-- ==== Sys2Proof/Machine/Template.lean ====
section
/-! DEFINITION. The symbol template of versions 1 to 40 (R160 to R174 of 42_template.md) and TPL.LOAD (R175).

A step of the build is a function of the cell: the colour that step's last `put` gives cell (r, c), or `none` where the step
does not touch it. "A later step's write to a cell replaces an earlier step's" (R161), so a cell has the colour of the last
step that touches it, and "every stamped cell is reserved, whatever its colour" (R162). -/

namespace Sys2Proof.Machine

/-- W = 21 + 4·(v − 1) (R160). -/
def symbolWidth (v : Nat) : Nat := 21 + 4 * (v - 1)

/-- |a − b|. -/
def dist (a b : Nat) : Nat := (a - b) + (b - a)

/-- Step 1, timing (R163): the whole of row 6 and column 6, dark at even offsets. -/
def timingAt (r c : Nat) : Option Bool :=
  if r = 6 then some (c % 2 == 0)
  else if c = 6 then some (r % 2 == 0)
  else none

/-- The three finder origins (R164). -/
def finderOrigins (w : Nat) : List Coord := [(0, 0), (0, w - 7), (w - 7, 0)]

/-- Whether (r, c) lies in the 7 × 7 square of the finder at `o`. -/
def inFinder (o : Coord) (r c : Nat) : Bool :=
  decide (o.1 ≤ r ∧ r ≤ o.1 + 6 ∧ o.2 ≤ c ∧ c ≤ o.2 + 6)

/-- Whether (r, c) lies in the 9 × 9 box around the finder at `o` (R165). -/
def inFinderBox (o : Coord) (r c : Nat) : Bool :=
  decide (o.1 ≤ r + 1 ∧ r ≤ o.1 + 7 ∧ o.2 ≤ c + 1 ∧ c ≤ o.2 + 7)

/-- Step 2a, finders (R164): dark but for ring 2, ring = max(|dr − 3|, |dc − 3|). -/
def finderAt (w r c : Nat) : Option Bool :=
  match (finderOrigins w).find? (inFinder · r c) with
  | some o => some (max (dist (r - o.1) 3) (dist (c - o.2) 3) != 2)
  | none => none

/-- Step 2b, separators (R165): light on the cells of a finder's box outside the finder. -/
def separatorAt (w r c : Nat) : Option Bool :=
  if (finderOrigins w).any (fun o => inFinderBox o r c && !inFinder o r c) then some false else none

/-- FA[i], the cell of format bit i around the top-left finder (R166). -/
def formatCellA (i : Nat) : Coord :=
  if i ≤ 5 then (i, 8)
  else if i = 6 then (7, 8)
  else if i = 7 then (8, 8)
  else if i = 8 then (8, 7)
  else (8, 14 - i)

/-- FB[i], the cell of format bit i at the top-right and bottom-left finders (R166). -/
def formatCellB (w i : Nat) : Coord := if i ≤ 7 then (8, w - 1 - i) else (w - 15 + i, 8)

/-- The format bit i in 0..14 whose placeholder, in one copy or the other, is cell (r, c). -/
def formatBitAt (w r c : Nat) : Option Nat :=
  (List.range 15).find? fun i => formatCellA i == (r, c) || formatCellB w i == (r, c)

/-- Step 2c, format placeholders (R166): light. -/
def placeholderAt (w r c : Nat) : Option Bool :=
  match formatBitAt w r c with
  | some _ => some false
  | none => none

/-- The dark module's cell, (W − 8, 8) (R167). -/
def darkModuleCell (w : Nat) : Coord := (w - 8, 8)

/-- Step 2d, the dark module (R167), with the colour DARK_MODULE_AT_TEMPLATE. -/
def darkModuleAt (atTemplate : Bool) (w r c : Nat) : Option Bool :=
  if (r, c) = darkModuleCell w then some atTemplate else none

/-- The position lists P(v), version 1 first (R169). -/
def alignmentTable : List (List Nat) :=
  [[],
   [6, 18],
   [6, 22],
   [6, 26],
   [6, 30],
   [6, 34],
   [6, 22, 38],
   [6, 24, 42],
   [6, 26, 46],
   [6, 28, 50]] ++
  [[6, 30, 54],
   [6, 32, 58],
   [6, 34, 62],
   [6, 26, 46, 66],
   [6, 26, 48, 70],
   [6, 26, 50, 74],
   [6, 30, 54, 78],
   [6, 30, 56, 82],
   [6, 30, 58, 86],
   [6, 34, 62, 90]] ++
  [[6, 28, 50, 72, 94],
   [6, 26, 50, 74, 98],
   [6, 30, 54, 78, 102],
   [6, 28, 54, 80, 106],
   [6, 32, 58, 84, 110],
   [6, 30, 58, 86, 114],
   [6, 34, 62, 90, 118],
   [6, 26, 50, 74, 98, 122],
   [6, 30, 54, 78, 102, 126],
   [6, 26, 52, 78, 104, 130]] ++
  [[6, 30, 56, 82, 108, 134],
   [6, 34, 60, 86, 112, 138],
   [6, 30, 58, 86, 114, 142],
   [6, 34, 62, 90, 118, 146],
   [6, 30, 54, 78, 102, 126, 150],
   [6, 24, 50, 76, 102, 128, 154],
   [6, 28, 54, 80, 106, 132, 158],
   [6, 32, 58, 84, 110, 136, 162],
   [6, 26, 54, 82, 110, 138, 166],
   [6, 30, 58, 86, 114, 142, 170]]

/-- P(v) for v in 1..40 (R169). -/
def alignmentPositions (v : Nat) : List Nat := alignmentTable[v - 1]?.getD []

/-- The entry of `ps` within 2 of `x`: the coordinate of the alignment centre whose 5 × 5 square reaches x. -/
def nearPosition (ps : List Nat) (x : Nat) : Option Nat := ps.find? fun p => decide (dist x p ≤ 2)

/-- "excluding the three positions that coincide with finder patterns": (6, 6), (6, last), (last, 6) (R168). -/
def alignmentExcluded (ps : List Nat) (pr pc : Nat) : Bool :=
  let last := ps.getLast?.getD 6
  (pr == 6 && pc == 6) || (pr == 6 && pc == last) || (pr == last && pc == 6)

/-- Step 3, alignment (R168): dark but for the ring at distance 1 of the centre. -/
def alignmentAt (v r c : Nat) : Option Bool :=
  let ps := alignmentPositions v
  match nearPosition ps r, nearPosition ps c with
  | some pr, some pc =>
    if alignmentExcluded ps pr pc then none else some (max (dist r pr) (dist c pc) != 1)
  | _, _ => none

/-- The remainder of `acc` divided by `g`, of degree `deg`, over GF(2): clears bits deg + n − 1 .. deg from the top. -/
def gf2Remainder (g deg : Nat) : Nat → Nat → Nat
  | 0, acc => acc
  | n + 1, acc => gf2Remainder g deg n (if acc.testBit (deg + n) then acc ^^^ (g <<< n) else acc)

/-- VI(v) = {v[5:0], rem12}, rem12 the remainder of v·x^12 by 0x1F25 (R171). -/
def versionWord (v : Nat) : BitVec 18 := BitVec.ofNat 18 ((v <<< 12) ||| gf2Remainder 0x1F25 12 6 (v <<< 12))

/-- Step 4, version information, for v ≥ 7 only (R170): bit i at (i div 3, W − 11 + i mod 3) and at its transpose. -/
def versionAt (v r c : Nat) : Option Bool :=
  let w := symbolWidth v
  if v < 7 then none
  else if r ≤ 5 ∧ w - 11 ≤ c ∧ c ≤ w - 9 then some ((versionWord v).getLsbD (3 * r + (c - (w - 11))))
  else if c ≤ 5 ∧ w - 11 ≤ r ∧ r ≤ w - 9 then some ((versionWord v).getLsbD (3 * c + (r - (w - 11))))
  else none

/-- The colour of the last step that stamps cell (r, c), `none` for a data module (R161, R173). -/
def stampAt (darkAtTemplate : Bool) (v r c : Nat) : Option Bool :=
  let w := symbolWidth v
  versionAt v r c <|> alignmentAt v r c <|> darkModuleAt darkAtTemplate w r c <|> placeholderAt w r c <|>
    separatorAt w r c <|> finderAt w r c <|> timingAt r c

/-- A stamped cell is reserved in its colour; a data module is `rsv = 0, dark = 0` (R162, R173). -/
def templateCell (darkAtTemplate : Bool) (v r c : Nat) : Cell :=
  match stampAt darkAtTemplate v r c with
  | some d => ⟨d, true⟩
  | none => ⟨false, false⟩

/-- The template of version v for either value of DARK_MODULE_AT_TEMPLATE. -/
def templateWith (darkAtTemplate : Bool) (v : Nat) : Matrix :=
  Matrix.tabulate (symbolWidth v) (templateCell darkAtTemplate v)

/-- `template(v)` (R174). -/
def template (v : Nat) : Matrix := templateWith Config.darkModuleAtTemplate v

/-- The prototype as the engine gets it: the cached one if present, else built (R44, R174). -/
def State.prototype (s : State) (v : Nat) : Matrix := (cacheFind s.tplCache v).getD (template v)

/-- TPL.LOAD VER, LVL (R175): E_VERSION with VER, then E_LEVEL with LVL; else the working matrix is a clone of the
template and the symbol registers start anew. -/
def execTplLoad (ver : BitVec 8) (lvl : BitVec 4) (s : State) : Result :=
  s.withCommand fun _ =>
    if ver.toNat < 1 ∨ ver.toNat > 40 then s.fail .version 0 (zext ver)
    else if lvl.toNat > 3 then s.fail .level 0 (lvl.setWidth 32)
    else
      let m := s.prototype ver.toNat
      { s with
        matrix := m
        tplCache := cachePublish s.tplCache ver.toNat m
        version := ver.setWidth 6
        width := BitVec.ofNat 8 (symbolWidth ver.toNat)
        level := lvl.setWidth 2
        phase := .template
        mask := 0xF
        fmt := 0
        capacity := BitVec.ofNat 16 m.dataModules
        placed := 0
        scored := 0
        score := noScores
        pen := noPenalties
        res0 := word (symbolWidth ver.toNat)
        res1 := word m.dataModules }.succeed

end Sys2Proof.Machine
end

