-- ==== Sys2Proof/Machine/Mask.lean ====
section
/-! DEFINITION. Mask predicates and candidates, the four penalty rules, selection, the format word and its write, and MASK.SCORE,
MASK.OPT, MASK.FORCE (R210 to R229 of 44_mask.md). -/

namespace Sys2Proof.Machine

/-! ## Predicates and candidates -/

/-- `mask_k(r, c)` (R210). -/
def maskPredicate (k : BitVec 3) (r c : Nat) : Bool :=
  match k.toNat with
  | 0 => (r + c) % 2 == 0
  | 1 => r % 2 == 0
  | 2 => c % 3 == 0
  | 3 => (r + c) % 3 == 0
  | 4 => (r / 2 + c / 3) % 2 == 0
  | 5 => r * c % 2 + r * c % 3 == 0
  | 6 => (r * c % 2 + r * c % 3) % 2 == 0
  | _ => ((r + c) % 2 + r * c % 3) % 2 == 0

/-- Candidate k (R211): every non-reserved cell with a true predicate has its colour flipped. -/
def candidate (k : BitVec 3) (m : Matrix) : Matrix :=
  m.mapCells fun r c x => if !x.rsv && maskPredicate k r c then { x with dark := !x.dark } else x

/-! ## Penalty rules, over the dark bits of all cells (R212) -/

/-- The W rows as lines (R213). -/
def rowLines (m : Matrix) : List (List Bool) := m.map fun row => row.map Cell.dark

/-- The W columns as lines, top to bottom (R213). -/
def columnLines (w : Nat) (m : Matrix) : List (List Bool) :=
  (List.range w).map fun c => (List.range w).map fun r => (m.cell r c).dark

/-- The 2·W lines (R213). -/
def allLines (w : Nat) (m : Matrix) : List (List Bool) := rowLines m ++ columnLines w m

/-- What a maximal run of n cells adds under rule A: n − 2 if n ≥ 5 (R214). -/
def runPoints (n : Nat) : Nat := if n ≥ 5 then n - 2 else 0

/-- The points of the maximal runs of a line whose current run is `n` cells of colour `b` so far. -/
def runsFrom (b : Bool) (n : Nat) : List Bool → Nat
  | [] => runPoints n
  | x :: l => if x = b then runsFrom b (n + 1) l else runPoints n + runsFrom x 1 l

/-- Rule A on one line (R214). -/
def lineRunPoints : List Bool → Nat
  | [] => 0
  | x :: l => runsFrom x 1 l

/-- Rule A (R214). -/
def ruleA (w : Nat) (m : Matrix) : Nat := ((allLines w m).map lineRunPoints).sum

/-- Rule B's windows over two adjacent rows (R215). -/
def blockPoints : List Bool → List Bool → Nat
  | x :: y :: top, z :: u :: bottom =>
    (if x = y ∧ x = z ∧ x = u then 3 else 0) + blockPoints (y :: top) (u :: bottom)
  | _, _ => 0

/-- Rule B over the rows from the top (R215). -/
def blockRows : List (List Bool) → Nat
  | r₁ :: r₂ :: rows => blockPoints r₁ r₂ + blockRows (r₂ :: rows)
  | _ => 0

/-- Rule B (R215): each 2 × 2 window of one colour adds 3. -/
def ruleB (m : Matrix) : Nat := blockRows (rowLines m)

/-- `10111010000` and `00001011101`, 1 = dark (R216). -/
def finderLike₁ : List Bool := [true, false, true, true, true, false, true, false, false, false, false]
def finderLike₂ : List Bool := [false, false, false, false, true, false, true, true, true, false, true]

/-- Rule C on one line (R216): 40 for each window of 11 cells that equals one of the two patterns. -/
def linePatternPoints : List Bool → Nat
  | [] => 0
  | x :: l =>
    (if (x :: l).take 11 = finderLike₁ ∨ (x :: l).take 11 = finderLike₂ then 40 else 0) + linePatternPoints l

/-- Rule C (R216). -/
def ruleC (w : Nat) (m : Matrix) : Nat := ((allLines w m).map linePatternPoints).sum

/-- The number of dark cells (R217). -/
def darkCount (m : Matrix) : Nat := (m.map fun row => row.countP Cell.dark).sum

/-- Rule D's step from `dk` dark cells of `t` (R217), in either BALANCE_MODE. -/
def balanceStep (mode : BalanceMode) (dk t : Nat) : Nat :=
  match mode with
  | .exact => dist (20 * dk) (10 * t) / t
  | .floorPercent => dist (100 * dk / t) 50 / 5

/-- Rule D (R217). -/
def ruleD (mode : BalanceMode) (w : Nat) (m : Matrix) : Nat := 10 * balanceStep mode (darkCount m) (w * w)

/-- The four sub-scores of a matrix of width w (R214 to R217). -/
def penaltyOf (w : Nat) (m : Matrix) : Penalty :=
  ⟨word (ruleA w m), word (ruleB m), word (ruleC w m), word (ruleD Config.balanceMode w m)⟩

/-- The winner (R219): the k with the smallest score, the smallest such k on a tie. "strictly lower replaces". -/
def bestMask (scores : Vector Word 8) : BitVec 3 :=
  [1, 2, 3, 4, 5, 6, 7].foldl (fun best k => if perMask scores k < perMask scores best then k else best) 0

/-! ## Format information -/

/-- `FW(ind, k)` (R221): data = {ind, k}, then its remainder by 0x537, XOR 0x5412. -/
def formatWord (ind : BitVec 2) (k : BitVec 3) : BitVec 15 :=
  let data := 8 * ind.toNat + k.toNat
  BitVec.ofNat 15 ((data <<< 10) ||| gf2Remainder 0x537 10 5 (data <<< 10)) ^^^ 0x5412#15

/-- The format write (R225): fw[i] at FA[i] and FB[i], and the dark module dark. No other cell and no `rsv` changes. -/
def writeFormat (w : Nat) (fw : BitVec 15) (m : Matrix) : Matrix :=
  m.mapCells fun r c x =>
    match formatBitAt w r c with
    | some i => { x with dark := fw.getLsbD i }
    | none => if (r, c) = darkModuleCell w then { x with dark := true } else x

/-! ## The commands -/

/-- The placed matrix's candidate k finalized (R225, R226, R228, R229): mask k applied, the format word of LEVEL and k
written, MASK = k, PHASE = FINAL. -/
def State.applyMask (s : State) (k : BitVec 3) : State :=
  let fw := formatWord (levelIndicator s.level) k
  { s with
    matrix := writeFormat s.width.toNat fw (candidate k s.matrix)
    fmt := fw
    mask := k.setWidth 4
    phase := .final }

/-- PEN[k] of the working matrix's candidate k (R212, R218). -/
def State.candidatePenalty (s : State) (k : BitVec 3) : Penalty := penaltyOf s.width.toNat (candidate k s.matrix)

/-- MASK.SCORE K (R227). -/
def execMaskScore (k : BitVec 3) (s : State) : Result :=
  s.withCommand fun _ =>
    if s.phase ≠ .placed then s.fail .sequence 0 (s.phase.code.setWidth 32)
    else
      let p := s.candidatePenalty k
      { s with
        pen := setPerMask s.pen k p
        score := setPerMask s.score k p.total
        scored := s.scored ||| (1#8 <<< k.toNat)
        res0 := p.total }.succeed

/-- MASK.OPT (R228). -/
def execMaskOpt (s : State) : Result :=
  s.withCommand fun _ =>
    if s.phase ≠ .placed then s.fail .sequence 0 (s.phase.code.setWidth 32)
    else
      let pen := forEachMask s.candidatePenalty
      let score := forEachMask fun k => (perMask pen k).total
      let best := bestMask score
      { s.applyMask best with
        pen := pen
        score := score
        scored := 0xFF
        res0 := best.setWidth 32
        res1 := perMask score best }.succeed

/-- MASK.FORCE K (R229). -/
def execMaskForce (k : BitVec 3) (s : State) : Result :=
  s.withCommand fun _ =>
    if s.phase ≠ .placed then s.fail .sequence 0 (s.phase.code.setWidth 32)
    else
      { s.applyMask k with
        res0 := k.setWidth 32
        res1 := (formatWord (levelIndicator s.level) k).setWidth 32 }.succeed

end Sys2Proof.Machine
end

