-- ==== Sys2Proof/Machine/Placement.lean ====
section
/-! DEFINITION. The zigzag order, the codeword bits, and PLACE (R190 to R195 of 43_placement.md). -/

namespace Sys2Proof.Machine

/-- The non-reserved coordinates of one column pair (right, right − 1) over `rows`: "visit the right column then the left
column", "emit only coordinates not marked reserved" (R190). -/
def zigzagPair (m : Matrix) (right : Nat) (rows : List Nat) : List Coord :=
  rows.flatMap fun r => [(r, right), (r, right - 1)].filter fun rc => !(m.cell rc.1 rc.2).rsv

/-- The loop `while right ≥ 1` (R190). `fuel` bounds the number of column pairs. Where the integer right − 2 would be
negative, the natural number 0 ends the loop all the same. -/
def zigzagFrom (m : Matrix) (w : Nat) : Nat → Nat → Bool → List Coord
  | 0, _, _ => []
  | fuel + 1, right, upward =>
    if right < 1 then []
    else
      let right := if right = 6 then 5 else right
      let rows := if upward then (List.range w).reverse else List.range w
      zigzagPair m right rows ++ zigzagFrom m w fuel (right - 2) (!upward)

/-- The zigzag order Z of a matrix of width w (R190). -/
def zigzag (m : Matrix) (w : Nat) : List Coord := zigzagFrom m w w (w - 1) true

/-- A codeword's bits as placed: "Position Z[8j + t] ... receives bit (7 − t) of the codeword" (R192). -/
def codewordBits (b : Byte) : List Bool := (List.range 8).map fun t => b.getLsbD (7 - t)

/-- The bits of a codeword sequence in placement order. -/
def sequenceBits (s : List Byte) : List Bool := s.flatMap codewordBits

/-- "A codeword bit 1 makes its module dark, and a bit 0 makes it light" (R193): bit i goes to Z[i], "trailing" modules are
not written (R194). -/
def placeBits (z : List Coord) (bits : List Bool) (m : Matrix) : Matrix :=
  (z.zip bits).foldl (fun m x => m.setDark x.1.1 x.1.2 x.2) m

/-- PLACE (R195), checks in order: E_SEQUENCE, E_RANGE, E_PLACE_EXHAUSTED; then the bytes are read and placed. -/
def execPlace (s : State) : Result :=
  s.withCommand fun c =>
    if s.phase ≠ .template then s.fail .sequence 0 (s.phase.code.setWidth 32)
    else
      match checkSource 0 0 c.arg0 with
      | .error e => .next (s.raise e)
      | .ok src =>
        if 8 * src.len > s.capacity.toNat then s.fail .placeExhausted 0 (word (8 * src.len))
        else
          s.readSource src fun bs =>
            { s with
              matrix := placeBits (zigzag s.matrix s.width.toNat) (sequenceBits bs) s.matrix
              placed := BitVec.ofNat 16 (8 * src.len)
              phase := .placed
              res0 := word (8 * src.len)
              res1 := word (s.capacity.toNat - 8 * src.len) }.succeed

end Sys2Proof.Machine
end

