-- ==== Sys2Proof/Machine/Poly.lean ====
section
/-! DEFINITION. Polynomials over GF(2^8), highest-degree coefficient first (R16 of 00_scope.md): product and remainder (R109, R110 of
40_gf.md) and the commands POLY.MUL and POLY.MOD (R119, R120). -/

namespace Sys2Proof.Machine

/-- `zeros(n)` (R16). -/
def zeros (n : Nat) : List Byte := List.replicate n 0

/-- `p` with the coefficients of `q` added to its first ones. -/
def xorPrefix : List Byte → List Byte → List Byte
  | p, [] => p
  | [], _ :: _ => []
  | x :: p, y :: q => gfadd x y :: xorPrefix p q

/-- `polymul(a, b)` (R109): the convolution of the two coefficient sequences, of length len(a) + len(b) − 1. By Horner on
`a`: its first coefficient times `b` lands on the leading coefficients of the result. -/
def polymul : List Byte → List Byte → List Byte
  | [], _ => []
  | [x], b => b.map (gfmul x)
  | x :: y :: a, b => xorPrefix (0 :: polymul (y :: a) b) (b.map (gfmul x))

/-- `steps` rounds of synthetic division by a monic divisor with tail `dtail` (R110): a round takes the leading coefficient c
off, and adds c times d[1..m] to the next m coefficients when c ≠ 0. -/
def synthDivide (dtail : List Byte) : Nat → List Byte → List Byte
  | 0, r => r
  | _ + 1, [] => []
  | n + 1, c :: r =>
    synthDivide dtail n (if c = 0 then r else xorPrefix r (dtail.map fun x => gfmul x c))

/-- `polymod(p, d)` (R110): "exactly m bytes", m = len(d) − 1; a dividend shorter than m is left-padded with zeros. -/
def polymod (p d : List Byte) : List Byte :=
  let m := d.length - 1
  let r := if p.length < m then zeros (m - p.length) ++ p else p
  synthDivide d.tail (r.length - m) r

/-- The checked operands of a command over two sources. -/
structure TwoSources where
  a   : Span
  b   : Span
  dst : Span
deriving DecidableEq, Repr

/-- POLY.MUL's checks, in order: ARG0 (length ≥ 1, range), ARG1 (length ≥ 1, range), ARG2 (R119). -/
def polyMulPlan (c : InFlight) : Except CommandError TwoSources := do
  let a ← checkSource 0 1 c.arg0
  let b ← checkSource 1 1 c.arg1
  let dst ← checkDest (a.len + b.len - 1) c.arg2
  return ⟨a, b, dst⟩

/-- POLY.MOD's checks before DMEM is read, in order: ARG0 (any length, range), ARG1 (length ≥ 2, range), ARG2 (R120). -/
def polyModPlan (c : InFlight) : Except CommandError TwoSources := do
  let p ← checkSource 0 0 c.arg0
  let d ← checkSource 1 2 c.arg1
  let dst ← checkDest (d.len - 1) c.arg2
  return ⟨p, d, dst⟩

/-- POLY.MUL (R119). -/
def execPolyMul (s : State) : Result :=
  s.withCommand fun c =>
    match polyMulPlan c with
    | .error e => .next (s.raise e)
    | .ok p =>
      s.readSource p.a fun a => s.readSource p.b fun b =>
        { s.writeDest p.dst (polymul a b) with res0 := word p.dst.len }.succeed

/-- POLY.MOD (R120): E_DIVISOR with d[0] when d[0] ≠ 1, after both sources are read (log 19). -/
def execPolyMod (s : State) : Result :=
  s.withCommand fun c =>
    match polyModPlan c with
    | .error e => .next (s.raise e)
    | .ok p =>
      s.readSource p.a fun a => s.readSource p.b fun d =>
        if d.headD 0 ≠ 1 then s.fail .divisor 0 (zext (d.headD 0))
        else { s.writeDest p.dst (polymod a d) with res0 := word p.dst.len }.succeed

end Sys2Proof.Machine
end

