-- ==== Sys2Proof/Machine/ReedSolomon.lean ====
section
/-! DEFINITION. Generator polynomials, error-correction bytes, and RS.GEN and RS.ECC (R140 to R146 of 41_rs.md). -/

namespace Sys2Proof.Machine

/-- `gen(n)` for n ≥ 1 (R140): gen(1) = [1, 1], gen(n) = polymul(gen(n−1), [1, EXP[n−1]]). No command uses degree 0, whose
value here is the empty product (log 15). -/
def gen : Nat → List Byte
  | 0 => [1]
  | 1 => [1, 1]
  | n + 2 => polymul (gen (n + 1)) [1, expAt (n + 1)]

/-- gen(n) as the engine gets it: the cached value if the cache holds degree n, else computed (R43, R142). -/
def State.generator (s : State) (n : Nat) : List Byte := (cacheFind s.genCache n).getD (gen n)

/-- "an entry is computed on first use and kept" (R142; which degrees a use publishes: log 13). -/
def State.publishGenerator (s : State) (n : Nat) : State :=
  { s with genCache := cachePublish s.genCache n (s.generator n) }

/-- The remainder of `data ++ zeros(n)` by a degree-n generator `g` (R143). -/
def eccWith (g data : List Byte) (n : Nat) : List Byte := polymod (data ++ zeros n) g

/-- `ecc(data, n)` (R143). -/
def ecc (data : List Byte) (n : Nat) : List Byte := eccWith (gen n) data n

/-- The degree check (R91, R145, R146): E_DEGREE with N unless 1 ≤ N ≤ RS_MAX_DEGREE. -/
def checkDegree (n : BitVec 8) : Except CommandError Nat :=
  if n.toNat < 1 ∨ n.toNat > Config.rsMaxDegree then .error ⟨.degree, 0, zext n⟩ else .ok n.toNat

/-- RS.GEN's checks, in order: degree, destination of N + 1 bytes (R145). -/
def rsGenPlan (n : BitVec 8) (c : InFlight) : Except CommandError Span := do
  let d ← checkDegree n
  checkDest (d + 1) c.arg2

/-- The checked operands of RS.ECC. -/
structure OneSource where
  src : Span
  dst : Span
deriving DecidableEq, Repr

/-- RS.ECC's checks, in order: degree, ARG0 (any length, range), destination of N bytes (R146). -/
def rsEccPlan (n : BitVec 8) (c : InFlight) : Except CommandError OneSource := do
  let d ← checkDegree n
  let src ← checkSource 0 0 c.arg0
  let dst ← checkDest d c.arg2
  return ⟨src, dst⟩

/-- RS.GEN N (R145). -/
def execRsGen (n : BitVec 8) (s : State) : Result :=
  s.withCommand fun c =>
    match rsGenPlan n c with
    | .error e => .next (s.raise e)
    | .ok dst =>
      { (s.publishGenerator n.toNat).writeDest dst (s.generator n.toNat) with res0 := word dst.len }.succeed

/-- RS.ECC N (R146). -/
def execRsEcc (n : BitVec 8) (s : State) : Result :=
  s.withCommand fun c =>
    match rsEccPlan n c with
    | .error e => .next (s.raise e)
    | .ok p =>
      s.readSource p.src fun data =>
        { (s.publishGenerator n.toNat).writeDest p.dst (eccWith (s.generator n.toNat) data n.toNat) with
          res0 := word p.dst.len }.succeed

end Sys2Proof.Machine
end

