-- ==== Sys2Proof/Machine/System.lean ====
section
/-! DEFINITION. The system command NOP (R240 of 45_system.md). -/

namespace Sys2Proof.Machine

/-- NOP (R240): "no effect beyond the acceptance and completion". -/
def execNop (s : State) : Result := s.withCommand fun _ => s.succeed

end Sys2Proof.Machine
end

