-- ==== Sys2Proof/Syntax.lean ====
section
/-! DEFINITION. The commands of QRCORE-1: one constructor per row of spec/opcode_table.json, with the immediate fields of R82. -/

namespace Sys2Proof

/-- A command. Every immediate is an unsigned field "used exactly as its bits read" (R83), so each operand has the
width R82 gives its field and every value of it can be encoded. Byte sequences are not in the word (R84). -/
inductive Instr where
  | nop                                       -- NOP          R240
  | gfAdd (a b : BitVec 8)                    -- GF.ADD A, B  R112
  | gfSub (a b : BitVec 8)                    -- GF.SUB A, B  R113
  | gfMul (a b : BitVec 8)                    -- GF.MUL A, B  R114
  | gfDiv (a b : BitVec 8)                    -- GF.DIV A, B  R115
  | gfPow (a : BitVec 8) (e : BitVec 16)      -- GF.POW A, E  R116
  | gfExp (a : BitVec 8)                      -- GF.EXP A     R117
  | gfLog (a : BitVec 8)                      -- GF.LOG A     R118
  | polyMul                                   -- POLY.MUL     R119
  | polyMod                                   -- POLY.MOD     R120
  | rsGen (n : BitVec 8)                      -- RS.GEN N     R145
  | rsEcc (n : BitVec 8)                      -- RS.ECC N     R146
  | tplLoad (ver : BitVec 8) (lvl : BitVec 4) -- TPL.LOAD VER, LVL  R175
  | place                                     -- PLACE        R195
  | maskScore (k : BitVec 3)                  -- MASK.SCORE K R227
  | maskOpt                                   -- MASK.OPT     R228
  | maskForce (k : BitVec 3)                  -- MASK.FORCE K R229
deriving DecidableEq, Repr

end Sys2Proof
end

