-- ==== Sys2Proof/Machine/Dispatch.lean ====
section
/-! DEFINITION. One arm per command: its meaning, the completion of that command (R251 of 60_exceptions.md). -/

namespace Sys2Proof.Machine

def exec (i : Instr) (s : State) : Host.Outcome State Fault Refusal :=
  match i with
  -- system (45_system.md)
  | .nop => Sys2Proof.Machine.execNop s
  -- scalar field (40_gf.md)
  | .gfAdd a b => Sys2Proof.Machine.execGfAdd a b s
  | .gfSub a b => Sys2Proof.Machine.execGfSub a b s
  | .gfMul a b => Sys2Proof.Machine.execGfMul a b s
  | .gfDiv a b => Sys2Proof.Machine.execGfDiv a b s
  | .gfPow a e => Sys2Proof.Machine.execGfPow a e s
  | .gfExp a => Sys2Proof.Machine.execGfExp a s
  | .gfLog a => Sys2Proof.Machine.execGfLog a s
  -- polynomials (40_gf.md)
  | .polyMul => Sys2Proof.Machine.execPolyMul s
  | .polyMod => Sys2Proof.Machine.execPolyMod s
  -- Reed-Solomon (41_rs.md)
  | .rsGen n => Sys2Proof.Machine.execRsGen n s
  | .rsEcc n => Sys2Proof.Machine.execRsEcc n s
  -- template (42_template.md)
  | .tplLoad ver lvl => Sys2Proof.Machine.execTplLoad ver lvl s
  -- placement (43_placement.md)
  | .place => Sys2Proof.Machine.execPlace s
  -- masks (44_mask.md)
  | .maskScore k => Sys2Proof.Machine.execMaskScore k s
  | .maskOpt => Sys2Proof.Machine.execMaskOpt s
  | .maskForce k => Sys2Proof.Machine.execMaskForce k s

end Sys2Proof.Machine
end

