-- ==== Sys2Proof/Decode.lean ====
section
/-! DEFINITION. Decoding a 32-bit command word (R80 to R83, R87, R90 of 30_encoding.md), then the encoder from the same table. -/

namespace Sys2Proof

/-- Why a command word is illegal (R90): "its OP is not in the rule R87 table, or ... any bit its format marks Z is 1".
"the opcode, then the reserved bits" (R257). -/
inductive IllegalCommand where
  | unknownOpcode (op : BitVec 8)
  | reservedBitSet (op : BitVec 8)
deriving DecidableEq, Repr

/-! ## Fields (R82) -/

/-- OP, bits [31:24]. -/
def fieldOp (w : Word) : BitVec 8 := w.extractLsb' 24 8
/-- Bits [23:16]: A of format P. -/
def field23 (w : Word) : BitVec 8 := w.extractLsb' 16 8
/-- Bits [15:8]: A of format G, VER of format T. -/
def field15 (w : Word) : BitVec 8 := w.extractLsb' 8 8
/-- Bits [7:0]: B of format G, A or N of format U. -/
def field7 (w : Word) : BitVec 8 := w.extractLsb' 0 8
/-- E of format P, bits [15:0]. -/
def fieldE (w : Word) : BitVec 16 := w.extractLsb' 0 16
/-- LVL of format T, bits [3:0]. -/
def fieldLvl (w : Word) : BitVec 4 := w.extractLsb' 0 4
/-- K of format K, bits [2:0]. -/
def fieldK (w : Word) : BitVec 3 := w.extractLsb' 0 3

/-! ## Reserved bits of the six formats (R81): true when every Z bit is 0 -/

/-- Format N: [23:0] are Z. -/
def reservedZeroN (w : Word) : Bool := w.extractLsb' 0 24 == 0#24
/-- Format G: [23:16] are Z. -/
def reservedZeroG (w : Word) : Bool := w.extractLsb' 16 8 == 0#8
/-- Format U: [23:8] are Z. -/
def reservedZeroU (w : Word) : Bool := w.extractLsb' 8 16 == 0#16
/-- Format T: [23:16] and [7:4] are Z. -/
def reservedZeroT (w : Word) : Bool := w.extractLsb' 16 8 == 0#8 && w.extractLsb' 4 4 == 0#4
/-- Format K: [23:3] are Z. -/
def reservedZeroK (w : Word) : Bool := w.extractLsb' 3 21 == 0#21

/-- A listed opcode decodes to its command when its format's reserved bits are 0 (R90). -/
def legalIf (reservedZero : Bool) (op : BitVec 8) (i : Instr) : Except IllegalCommand Instr :=
  if reservedZero then .ok i else .error (.reservedBitSet op)

/-- The decoder (R80, R87, R90): the opcode selects the format, the format the fields. Total: every word decodes or is
illegal by name. -/
def decode (w : Word) : Except IllegalCommand Instr :=
  let op := fieldOp w
  if op = 0x00#8 then legalIf (reservedZeroN w) op .nop
  else if op = 0x01#8 then legalIf (reservedZeroG w) op (.gfAdd (field15 w) (field7 w))
  else if op = 0x02#8 then legalIf (reservedZeroG w) op (.gfSub (field15 w) (field7 w))
  else if op = 0x03#8 then legalIf (reservedZeroG w) op (.gfMul (field15 w) (field7 w))
  else if op = 0x04#8 then legalIf (reservedZeroG w) op (.gfDiv (field15 w) (field7 w))
  else if op = 0x05#8 then legalIf true op (.gfPow (field23 w) (fieldE w))
  else if op = 0x06#8 then legalIf (reservedZeroU w) op (.gfExp (field7 w))
  else if op = 0x07#8 then legalIf (reservedZeroU w) op (.gfLog (field7 w))
  else if op = 0x10#8 then legalIf (reservedZeroN w) op .polyMul
  else if op = 0x11#8 then legalIf (reservedZeroN w) op .polyMod
  else if op = 0x20#8 then legalIf (reservedZeroU w) op (.rsGen (field7 w))
  else if op = 0x21#8 then legalIf (reservedZeroU w) op (.rsEcc (field7 w))
  else if op = 0x30#8 then legalIf (reservedZeroT w) op (.tplLoad (field15 w) (fieldLvl w))
  else if op = 0x40#8 then legalIf (reservedZeroN w) op .place
  else if op = 0x50#8 then legalIf (reservedZeroK w) op (.maskScore (fieldK w))
  else if op = 0x51#8 then legalIf (reservedZeroN w) op .maskOpt
  else if op = 0x52#8 then legalIf (reservedZeroK w) op (.maskForce (fieldK w))
  else .error (.unknownOpcode op)

/-- What the decoder reads from a table row's word: the bits above `nbits` are 0. A command is one 32-bit word (R80). -/
def decodeTableWord (nbits w : Nat) : Option Instr :=
  match decode (word (w % 2 ^ nbits)) with
  | .ok i => some i
  | .error _ => none

/-! ## The encoder -/

/-- Format N (R81): OP, then 24 reserved zeros. -/
def encodeN (op : BitVec 8) : Word := op ++ 0#24
/-- Format G (R81): OP, Z, A, B. -/
def encodeG (op a b : BitVec 8) : Word := op ++ 0#8 ++ a ++ b
/-- Format P (R81): OP, A, E. -/
def encodeP (op a : BitVec 8) (e : BitVec 16) : Word := op ++ a ++ e
/-- Format U (R81): OP, Z, Z, A. -/
def encodeU (op a : BitVec 8) : Word := op ++ 0#16 ++ a
/-- Format T (R81): OP, Z, VER, Z in [7:4], LVL. -/
def encodeT (op ver : BitVec 8) (lvl : BitVec 4) : Word := op ++ 0#8 ++ ver ++ 0#4 ++ lvl
/-- Format K (R81): OP, Z up to bit 3, K. -/
def encodeK (op : BitVec 8) (k : BitVec 3) : Word := op ++ 0#21 ++ k

/-- The command word of a command (R81, R87). -/
def encode : Instr → Word
  | .nop => encodeN 0x00#8
  | .gfAdd a b => encodeG 0x01#8 a b
  | .gfSub a b => encodeG 0x02#8 a b
  | .gfMul a b => encodeG 0x03#8 a b
  | .gfDiv a b => encodeG 0x04#8 a b
  | .gfPow a e => encodeP 0x05#8 a e
  | .gfExp a => encodeU 0x06#8 a
  | .gfLog a => encodeU 0x07#8 a
  | .polyMul => encodeN 0x10#8
  | .polyMod => encodeN 0x11#8
  | .rsGen n => encodeU 0x20#8 n
  | .rsEcc n => encodeU 0x21#8 n
  | .tplLoad ver lvl => encodeT 0x30#8 ver lvl
  | .place => encodeN 0x40#8
  | .maskScore k => encodeK 0x50#8 k
  | .maskOpt => encodeN 0x51#8
  | .maskForce k => encodeK 0x52#8 k

end Sys2Proof
end

