-- ==== Sys2Proof/Machine/Flags.lean ====
section
/-! DEFINITION. The block's only flags: STATUS and CTRL as words, write-1-to-clear, and the interrupt output (R22, R23 of
10_state.md, R262, R263 of 60_exceptions.md). -/

namespace Sys2Proof.Machine

/-- One flag as a bit of a 32-bit register. -/
def flagBit (b : Bool) (i : Nat) : Word := if b then word (2 ^ i) else 0

/-- STATUS as read: BUSY, DONE, ERR, OVF in bits 0..3, bits 31:4 read 0 (R23). -/
def State.statusWord (s : State) : Word :=
  flagBit s.busy 0 ||| flagBit s.done 1 ||| flagBit s.err 2 ||| flagBit s.ovf 3

/-- CTRL as read: IE in bit 0; SRST reads 0; bits 31:2 read 0 (R22). -/
def State.ctrlWord (s : State) : Word := flagBit s.ie 0

/-- ERRCODE as read: CODE [7:0], ARGIDX [11:8], bits 31:12 read 0 (R27). -/
def State.errcodeWord (s : State) : Word := 0#20 ++ s.errArgIdx ++ s.errCode

/-- A host write to STATUS (R23): a 1 clears DONE, ERR or OVF, "A host write to BUSY is ignored". Clearing ERR is the
return from an error (R260). -/
def State.writeStatus (s : State) (v : Word) : State :=
  let s := if v.getLsbD 1 then { s with done := false } else s
  let s := if v.getLsbD 2 then s.returnFromError else s
  if v.getLsbD 3 then { s with ovf := false } else s

/-- `IRQ = CTRL.IE & (STATUS.DONE | STATUS.ERR | STATUS.OVF)` (R263). -/
def State.irq (s : State) : Bool := s.ie && (s.done || s.err || s.ovf)

end Sys2Proof.Machine
end

