-- ==== Sys2Proof/Machine/HostPort.lean ====
section
/-! DEFINITION. The host's side of the block: the register space, DMEM and the matrix window, both resets, and one host access as a
step (10_state.md section 2, 20_memory.md, R280, R281, R290 of 70_reset_and_hazards.md). -/

namespace Sys2Proof.Machine

/-! ## Reset -/

/-- What the rule of the command `c` in flight "would have written, from its destination address for its result length"
(R281): nothing when it raises an error or writes no DMEM. POLY.MOD's divisor check needs DMEM; it counts as failing only
when the divisor's bytes are written and say so (log 12). -/
def destinationOf (s : State) (c : InFlight) : Instr → Option Span
  | .nop => none
  | .gfAdd _ _ => none
  | .gfSub _ _ => none
  | .gfMul _ _ => none
  | .gfDiv _ _ => none
  | .gfPow _ _ => none
  | .gfExp _ => none
  | .gfLog _ => none
  | .polyMul => (polyMulPlan c).toOption.map TwoSources.dst
  | .polyMod =>
    match polyModPlan c with
    | .error _ => none
    | .ok p =>
      match s.dmem.read p.b.addr with
      | some d => if d ≠ 1 then none else some p.dst
      | none => some p.dst
  | .rsGen n => (rsGenPlan n c).toOption
  | .rsEcc n => (rsEccPlan n c).toOption.map OneSource.dst
  | .tplLoad _ _ => none
  | .place => none
  | .maskScore _ => none
  | .maskOpt => none
  | .maskForce _ => none

/-- The DMEM bytes an abort leaves unwritten (R281): none when no command is in flight, or its word is illegal. -/
def State.abortedSpan (s : State) : Option Span :=
  match s.inFlight with
  | none => none
  | some c =>
    match decode c.word with
    | .error _ => none
    | .ok i => destinationOf s c i

/-- Every item of the R280 table but DMEM at its reset value. The model's own fields are the host's and stay (log 17). -/
def State.resetBlock (s : State) : State :=
  { State.reset with
    dmem := s.dmem
    hostQueue := s.hostQueue
    readData := s.readData
    latencyIndex := s.latencyIndex }

/-- Hardware reset (R280): "A hardware reset after power-on leaves DMEM's contents as they were". -/
def State.hardReset (s : State) : State := s.resetBlock

/-- Soft reset (R281): as hardware reset, and the destination bytes of an aborted command become unwritten. -/
def State.softReset (s : State) : State :=
  match s.abortedSpan with
  | none => s.resetBlock
  | some sp => { s.resetBlock with dmem := s.dmem.eraseBytes sp.addr sp.len }

/-! ## Registers (10_state.md section 2) -/

/-- ID (R21). -/
def idWord : Word := 0x51524331

/-- A 32-bit register read. Offsets not in the map read 0 (R49). -/
def State.readRegister (s : State) (offset : Nat) : Word :=
  if offset = 0x000 then idWord
  else if offset = 0x004 then s.ctrlWord
  else if offset = 0x008 then s.statusWord
  else if offset = 0x00C then s.cmd
  else if offset = 0x010 then s.arg0
  else if offset = 0x014 then s.arg1
  else if offset = 0x018 then s.arg2
  else if offset = 0x020 then s.res0
  else if offset = 0x024 then s.res1
  else if offset = 0x028 then s.errcodeWord
  else if offset = 0x02C then s.errInfo
  else if offset = 0x030 then s.version.setWidth 32
  else if offset = 0x034 then s.width.setWidth 32
  else if offset = 0x038 then s.level.setWidth 32
  else if offset = 0x03C then s.phase.code.setWidth 32
  else if offset = 0x040 then s.mask.setWidth 32
  else if offset = 0x044 then s.fmt.setWidth 32
  else if offset = 0x048 then s.capacity.setWidth 32
  else if offset = 0x04C then s.placed.setWidth 32
  else if offset = 0x050 then s.cmdCount
  else if offset = 0x054 then s.scored.setWidth 32
  else if 0x060 ≤ offset ∧ offset < 0x080 then perMask s.score (BitVec.ofNat 3 ((offset - 0x060) / 4))
  else if 0x080 ≤ offset ∧ offset < 0x100 then
    (perMask s.pen (BitVec.ofNat 3 ((offset - 0x080) / 16))).get ((offset - 0x080) % 16 / 4)
  else 0

/-- A host write to CTRL (R22): SRST = 1 resets, and IE is then 0 "whatever bit 0 of the same write holds" (R281). -/
def State.writeCtrl (s : State) (v : Word) : State :=
  if v.getLsbD 1 then s.softReset else { s with ie := v.getLsbD 0 }

/-- A host write to CMD (R24): accepted when BUSY = 0 (R250), else dropped with OVF set (R252). -/
def State.writeCmd (s : State) (v : Word) : State :=
  if s.busy then { s with ovf := true } else s.accept v

/-- A 32-bit register write. Read-only and reserved offsets ignore it (R49, R69). -/
def State.writeRegister (s : State) (offset : Nat) (v : Word) : State :=
  if offset = 0x004 then s.writeCtrl v
  else if offset = 0x008 then s.writeStatus v
  else if offset = 0x00C then s.writeCmd v
  else if offset = 0x010 then { s with arg0 := v }
  else if offset = 0x014 then { s with arg1 := v }
  else if offset = 0x018 then { s with arg2 := v }
  else s

/-! ## The address map (R60) -/

def dmemBase : Nat := 0x01000
def windowBase : Nat := 0x10000
def blockSize : Nat := 0x20000

/-- A byte offset in a reserved range: the register words R49 names, or between DMEM and the window (R60). -/
def reservedOffset (o : Nat) : Bool :=
  decide ((0x01C ≤ o ∧ o < 0x020) ∨ (0x058 ≤ o ∧ o < 0x060) ∨ (0x100 ≤ o ∧ o < dmemBase) ∨
    (dmemBase + Config.dmemSize ≤ o ∧ o < windowBase))

/-- The access is at a reserved offset and every byte of it is reserved: it "reads 0, writes ignored" whatever its width and
alignment (R64; log 8). -/
def reservedAccess (offset bytes : Nat) : Bool :=
  reservedOffset offset && (List.range bytes).all fun i => reservedOffset (offset + i)

/-- 8, 16 or 32 bits, naturally aligned (R64). -/
def naturalAccess (offset bytes : Nat) : Bool :=
  (bytes == 1 || bytes == 2 || bytes == 4) && offset % bytes == 0

/-- The bytes of a 32-bit value written by an access of `n` bytes, the byte of bits [7:0] first (R63). -/
def littleEndianBytes (v : Word) (n : Nat) : List Byte := (List.range n).map fun i => v.extractLsb' (8 * i) 8

/-- The value of bytes read, the first in bits [7:0], zero-extended (R63). -/
def littleEndianWord : List Byte → Word
  | [] => 0
  | b :: bs => zext b ||| (littleEndianWord bs <<< 8)

/-- The byte of the matrix window at window offset 256·r + c (R62). -/
def State.windowByte (s : State) (o : Nat) : Byte :=
  let r := o / 256
  let c := o % 256
  if s.phase ≠ .empty ∧ r < s.width.toNat ∧ c < s.width.toNat then
    0#6 ++ BitVec.ofBool (s.matrix.cell r c).rsv ++ BitVec.ofBool (s.matrix.cell r c).dark
  else 0

/-- A read's data goes to the host, zero-extended (log 20); no read has a side effect on the block (R69). -/
def State.answerRead (s : State) (v : Word) : Result := .next { s with readData := some v }

/-- A host read of `bytes` bytes at `offset` (R60 to R64, R68, R69, R290). A read that reaches the window from the reserved
offsets before it is a misaligned read of window bytes, "refused" by R64's window row (log 9). -/
def hostRead (offset bytes : Nat) (s : State) : Result :=
  if reservedAccess offset bytes then s.answerRead 0
  else if offset < dmemBase then
    if bytes = 4 ∧ offset % 4 = 0 then s.answerRead (s.readRegister offset) else .refused .registerAccessForm
  else if offset < dmemBase + Config.dmemSize then
    if s.busy then .refused .dmemWhileBusy
    else if naturalAccess offset bytes ∧ offset + bytes ≤ dmemBase + Config.dmemSize then
      s.readSource ⟨offset - dmemBase, bytes⟩ fun bs => s.answerRead (littleEndianWord bs)
    else .refused .dmemAccessForm
  else if offset < blockSize then
    if s.busy then .refused .windowWhileBusy
    else if naturalAccess offset bytes then
      s.answerRead (littleEndianWord ((List.range bytes).map fun i => s.windowByte (offset - windowBase + i)))
    else .refused .windowAccessForm
  else .fault .offsetOutsideBlock

/-- A host write of the low `bytes` bytes of `v` at `offset` (R60 to R64, R69, R290). "Window writes of any kind are ignored"
(I5), those that reach the window from the reserved offsets before it among them. -/
def hostWrite (offset bytes : Nat) (v : Word) (s : State) : Result :=
  if reservedAccess offset bytes then .next s
  else if offset < dmemBase then
    if bytes = 4 ∧ offset % 4 = 0 then .next (s.writeRegister offset v) else .refused .registerAccessForm
  else if offset < dmemBase + Config.dmemSize then
    if s.busy then .refused .dmemWhileBusy
    else if naturalAccess offset bytes ∧ offset + bytes ≤ dmemBase + Config.dmemSize then
      .next { s with dmem := s.dmem.writeBytes (offset - dmemBase) (littleEndianBytes v bytes) }
    else .refused .dmemAccessForm
  else if offset < blockSize then
    if s.busy then .refused .windowWhileBusy else .next s
  else .fault .offsetOutsideBlock

/-- One host access. -/
def performAccess (a : HostAccess) (s : State) : Result :=
  match a with
  | .read offset bytes => hostRead offset bytes s
  | .write offset bytes v => hostWrite offset bytes v s
  | .hardReset => .next s.hardReset
  | .idle => .next s

/-- The host's step: its next access in issue order (R72). With none left, the block waits: "all state is kept while idle"
(R265). -/
def hostStep (s : State) : Result :=
  match s.hostQueue with
  | [] => .next s
  | a :: rest => performAccess a { s with hostQueue := rest }

end Sys2Proof.Machine
end

