-- ==== Sys2Proof/Machine/Engine.lean ====
section
/-! DEFINITION. The engine's step: completing the command in flight (R90 of 30_encoding.md, R250, R251 of 60_exceptions.md). -/

namespace Sys2Proof.Machine

/-- Complete the command in flight: decode its latched word and run its rule. An illegal word "completes with E_ILLEGAL,
with ERRINFO = the word. It has no other effect" (R90). -/
def completeCommand (c : InFlight) (s : State) : Result :=
  match decode c.word with
  | .ok i => exec i s
  | .error _ => s.fail .illegal 0 c.word

/-- A host step that passes while the command in flight still waits. -/
def waitOneStep (c : InFlight) (s : State) : State := { s with inFlight := some { c with delay := c.delay - 1 } }

/-- The word a table row's `nbits` bits give, the bits above them 0 (R80). -/
def tableWord (nbits w : Nat) : Word := word (w % 2 ^ nbits)

end Sys2Proof.Machine
end

