-- ==== Sys2Proof/Machine/Step.lean ====
section
/-! DEFINITION. One step of the machine: the host and the engine "take atomic steps, one at a time" (R258 of 60_exceptions.md). -/

namespace Sys2Proof.Machine

/-- While a command waits out its latency, or none is in flight, the step is the host's; when the latency is over it is the
engine's completion (R251, R258, R295; log 2, log 3). -/
def step (s : State) : Host.Outcome State Fault Refusal :=
  match s.inFlight with
  | none => hostStep s
  | some c =>
    match c.delay with
    | 0 => completeCommand c s
    | _ + 1 => hostStep (waitOneStep c s)

/-- The next step completes the command word `w`: it has just been accepted (R250) and its latency is over (log 18). -/
def State.withFetchWord (s : State) (nbits w : Nat) : State := s.acceptWith 0 (tableWord nbits w)

end Sys2Proof.Machine
end

