-- ==== Sys2Proof/WellFormed.lean ====
section
/-! DEFINITION. Which commands have every immediate in the range the command accepts (R91 of 30_encoding.md).

Every value of an immediate field is encodable (R83), so the field widths need no check: they are the types of `Instr`.
What R91 calls out of range is "a legal encoding whose field value the command does not accept": it decodes and runs,
and it raises an operand error. So decoding, encoding and exec are about every command, well-formed or not. -/

namespace Sys2Proof

/-- Every immediate is in its command's range (R91): VER in 1..40, LVL in 0..3, N in 1..RS_MAX_DEGREE, A ≠ 255 for GF.EXP. -/
def Instr.wellFormed : Instr → Bool
  | .nop => true
  | .gfAdd _ _ => true
  | .gfSub _ _ => true
  | .gfMul _ _ => true
  | .gfDiv _ _ => true
  | .gfPow _ _ => true
  | .gfExp a => a != 255#8
  | .gfLog _ => true
  | .polyMul => true
  | .polyMod => true
  | .rsGen n => decide (1 ≤ n.toNat ∧ n.toNat ≤ Config.rsMaxDegree)
  | .rsEcc n => decide (1 ≤ n.toNat ∧ n.toNat ≤ Config.rsMaxDegree)
  | .tplLoad ver lvl => decide (1 ≤ ver.toNat ∧ ver.toNat ≤ 40 ∧ lvl.toNat ≤ 3)
  | .place => true
  | .maskScore _ => true
  | .maskOpt => true
  | .maskForce _ => true

/-- The check as a proposition. -/
abbrev WellFormed (i : Instr) : Prop := i.wellFormed = true

end Sys2Proof
end

