-- ==== Sys2Proof/Safety.lean ====
section
/-! DEFINITION. The words claims are stated in: a command's two completions spelled out field by field, what a store leaves, the
spec's formulas in their plainest form, and the invariants every step keeps. Nothing here is used by the machine. -/

namespace Sys2Proof.Machine

/-! ## Completions (R251 of 60_exceptions.md) -/

/-- `u` with BUSY = 0, DONE = 1 and CMD_COUNT one more: what R251 adds to a rule's effects. -/
def completed (u : State) : State :=
  { u with inFlight := none, done := true, cmdCount := u.cmdCount + 1 }

/-- `s` with the error report of R251 and no other effect. -/
def reported (s : State) (code : BitVec 8) (argIdx : BitVec 4) (info : Word) : State :=
  { s with
    inFlight := none, err := true, errCode := code, errArgIdx := argIdx, errInfo := info
    cmdCount := s.cmdCount + 1 }

/-- DMEM `after` holds `bs` at `dst`, and every byte outside reads as in `before`. -/
def StoresExactly (before after : Memory) (dst : Nat) (bs : List Byte) : Prop :=
  after.readBytes dst bs.length = some bs ∧
  ∀ a, (a < dst ∨ dst + bs.length ≤ a) → after.read a = before.read a

/-- A step that completes nothing and waits: the command in flight, if any, has one host step less to wait. -/
def waited (s : State) (rest : List HostAccess) : State :=
  { s with
    hostQueue := rest
    inFlight := s.inFlight.map fun c => { c with delay := c.delay - 1 } }

/-- The next step is the host's, and it makes the access `a` (R258, R295). -/
def HostMovesNext (s : State) (a : HostAccess) (rest : List HostAccess) : Prop :=
  s.hostQueue = a :: rest ∧ ∀ c, s.inFlight = some c → 0 < c.delay

/-- The reserved byte offsets (R49, R60): the register words 0x01C, 0x058, 0x05C and 0x100 to 0xFFF, and the range between
DMEM and the window. -/
def Reserved (o : Nat) : Prop :=
  (0x01C ≤ o ∧ o < 0x020) ∨ (0x058 ≤ o ∧ o < 0x060) ∨ (0x100 ≤ o ∧ o < 0x1000) ∨
    (0x1000 + Config.dmemSize ≤ o ∧ o < 0x10000)

/-- A source descriptor that a command with this least length accepts (R65). -/
def SourceOk (minLen : Nat) (d : Word) : Prop :=
  minLen ≤ (sourceSpan d).len ∧ (sourceSpan d).addr + (sourceSpan d).len ≤ Config.dmemSize

/-- A destination that `n` result bytes fit at (R66). -/
def DestOk (n : Nat) (d : Word) : Prop := destAddr d + n ≤ Config.dmemSize

/-- The bytes a source descriptor names (R65). -/
def sourceBytes (s : State) (d : Word) : Option (List Byte) :=
  s.dmem.readBytes (sourceSpan d).addr (sourceSpan d).len

/-! ## The register map (10_state.md section 2) -/

/-- Each register's offset and the word a read of it returns. -/
def registerMap (s : State) : List (Nat × Word) :=
  [(0x000, 0x51524331), (0x004, if s.ie then 1 else 0),
   (0x008, (if s.busy then 1 else 0) + (if s.done then 2 else 0) + (if s.err then 4 else 0) + (if s.ovf then 8 else 0)),
   (0x00C, s.cmd), (0x010, s.arg0), (0x014, s.arg1), (0x018, s.arg2), (0x020, s.res0), (0x024, s.res1),
   (0x028, word (256 * s.errArgIdx.toNat + s.errCode.toNat)), (0x02C, s.errInfo)] ++
  [(0x030, word s.version.toNat), (0x034, word s.width.toNat), (0x038, word s.level.toNat),
   (0x03C, word (match s.phase with | .empty => 0 | .template => 1 | .placed => 2 | .final => 3)),
   (0x040, word s.mask.toNat), (0x044, word s.fmt.toNat), (0x048, word s.capacity.toNat), (0x04C, word s.placed.toNat),
   (0x050, s.cmdCount), (0x054, word s.scored.toNat)] ++
  ((List.range 8).map fun k => (0x060 + 4 * k, s.score[k]?.getD 0)) ++
  ((List.range 8).flatMap fun k =>
    let p := s.pen[k]?.getD noPenalty
    [(0x080 + 16 * k, p.a), (0x084 + 16 * k, p.b), (0x088 + 16 * k, p.c), (0x08C + 16 * k, p.d)])

/-! ## The opcode table of R87 (30_encoding.md) -/

/-- A row: match and mask. -/
structure OpcodeRow where
  pattern : Word
  mask    : Word
deriving DecidableEq, Repr

/-- The row of a command. -/
def opcodeRow : Instr → OpcodeRow
  | .nop => ⟨0x00000000, 0xFFFFFFFF⟩
  | .gfAdd _ _ => ⟨0x01000000, 0xFFFF0000⟩
  | .gfSub _ _ => ⟨0x02000000, 0xFFFF0000⟩
  | .gfMul _ _ => ⟨0x03000000, 0xFFFF0000⟩
  | .gfDiv _ _ => ⟨0x04000000, 0xFFFF0000⟩
  | .gfPow _ _ => ⟨0x05000000, 0xFF000000⟩
  | .gfExp _ => ⟨0x06000000, 0xFFFFFF00⟩
  | .gfLog _ => ⟨0x07000000, 0xFFFFFF00⟩
  | .polyMul => ⟨0x10000000, 0xFFFFFFFF⟩
  | .polyMod => ⟨0x11000000, 0xFFFFFFFF⟩
  | .rsGen _ => ⟨0x20000000, 0xFFFFFF00⟩
  | .rsEcc _ => ⟨0x21000000, 0xFFFFFF00⟩
  | .tplLoad _ _ => ⟨0x30000000, 0xFFFF00F0⟩
  | .place => ⟨0x40000000, 0xFFFFFFFF⟩
  | .maskScore _ => ⟨0x50000000, 0xFFFFFFF8⟩
  | .maskOpt => ⟨0x51000000, 0xFFFFFFFF⟩
  | .maskForce _ => ⟨0x52000000, 0xFFFFFFF8⟩

/-- The seventeen rows. -/
def opcodeRows : List OpcodeRow :=
  [opcodeRow .nop, opcodeRow (.gfAdd 0 0), opcodeRow (.gfSub 0 0), opcodeRow (.gfMul 0 0), opcodeRow (.gfDiv 0 0),
   opcodeRow (.gfPow 0 0), opcodeRow (.gfExp 0), opcodeRow (.gfLog 0), opcodeRow .polyMul, opcodeRow .polyMod] ++
  [opcodeRow (.rsGen 0), opcodeRow (.rsEcc 0), opcodeRow (.tplLoad 0 0), opcodeRow .place, opcodeRow (.maskScore 0),
   opcodeRow .maskOpt, opcodeRow (.maskForce 0)]

/-- `(w & mask) == match`. -/
def OpcodeRow.Matches (row : OpcodeRow) (w : Word) : Prop := w &&& row.mask = row.pattern

/-! ## The field, from its reducer (R4 of 00_scope.md, R100 of 40_gf.md) -/

/-- Doubling with reduction: "t = EXP[i] << 1; if t[8] == 1: t = t XOR 0x11D" (R100). -/
def timesTwo (b : Byte) : Byte :=
  let t : BitVec 9 := b.setWidth 9 <<< 1
  (if t.getLsbD 8 then t ^^^ 0x11D#9 else t).setWidth 8

/-- 2^i by repeated doubling (R100). -/
def powerOfTwo : Nat → Byte
  | 0 => 1
  | i + 1 => timesTwo (powerOfTwo i)

/-- The product of two polynomials over GF(2) reduced by x^8 + x^4 + x^3 + x^2 + 1, bit by bit of `b` (R4). -/
def reducedProduct (a b : Byte) : Byte :=
  let doubles := [a, timesTwo a, timesTwo (timesTwo a), timesTwo (timesTwo (timesTwo a))]
  let a4 := timesTwo (timesTwo (timesTwo (timesTwo a)))
  let more := [a4, timesTwo a4, timesTwo (timesTwo a4), timesTwo (timesTwo (timesTwo a4))]
  ((doubles ++ more).zipIdx.filter fun x => b.getLsbD x.2).foldl (fun acc x => acc ^^^ x.1) 0

/-- The e-fold product of `a` (R107). -/
def foldedProduct (a : Byte) : Nat → Byte
  | 0 => 1
  | e + 1 => gfmul a (foldedProduct a e)

/-! ## Polynomials -/

/-- c[k] = XOR over all (i, j) with i + j = k of gfmul(a[i], b[j]), of length len(a) + len(b) − 1 (R109). -/
def convolution (a b : List Byte) : List Byte :=
  (List.range (a.length + b.length - 1)).map fun k =>
    (List.range a.length).foldl
      (fun acc i => if i ≤ k ∧ k - i < b.length then acc ^^^ gfmul (a.getD i 0) (b.getD (k - i) 0) else acc) 0

/-- `r` is the remainder of `p` by `d` with exactly len(d) − 1 coefficients (R110): p = q·d + r for some q, where a dividend
that is not longer than r is r with zeros before it. -/
def IsRemainder (p d r : List Byte) : Prop :=
  r.length = d.length - 1 ∧
  (p.length ≤ r.length → r = zeros (r.length - p.length) ++ p) ∧
  (r.length < p.length →
    ∃ q : List Byte, q.length = p.length - r.length ∧
      p = List.zipWith gfadd (convolution q d) (zeros q.length ++ r))

/-- The value of a polynomial at `x`, high coefficient first. -/
def evalPoly (p : List Byte) (x : Byte) : Byte := p.foldl (fun acc c => gfadd (gfmul acc x) c) 0

/-! ## The template as the sequence of `put`s of R163 to R170 (42_template.md) -/

/-- One `put(r, c, d)` (R162). -/
structure Put where
  r : Nat
  c : Nat
  d : Bool
deriving DecidableEq, Repr

def timingPuts (w : Nat) : List Put :=
  (List.range w).flatMap fun i => [⟨6, i, i % 2 == 0⟩, ⟨i, 6, i % 2 == 0⟩]

def finderPuts (w : Nat) : List Put :=
  [(0, 0), (0, w - 7), (w - 7, 0)].flatMap fun o =>
    (List.range 7).flatMap fun dr => (List.range 7).map fun dc =>
      ⟨o.1 + dr, o.2 + dc, max ((dr : Int) - 3).natAbs ((dc : Int) - 3).natAbs != 2⟩

def separatorPuts (w : Nat) : List Put :=
  [((0 : Int), (0 : Int)), (0, (w : Int) - 7), ((w : Int) - 7, 0)].flatMap fun o =>
    (List.range 9).flatMap fun i => (List.range 9).filterMap fun j =>
      let dr := (i : Int) - 1
      let dc := (j : Int) - 1
      let r := o.1 + dr
      let c := o.2 + dc
      if (0 ≤ r ∧ r < w ∧ 0 ≤ c ∧ c < w) ∧ ¬(0 ≤ dr ∧ dr ≤ 6 ∧ 0 ≤ dc ∧ dc ≤ 6) then
        some ⟨r.toNat, c.toNat, false⟩
      else none

/-- The table of R166, FA then FB, bit 0 first. -/
def formatCellsA : List Coord :=
  [(0, 8), (1, 8), (2, 8), (3, 8), (4, 8), (5, 8), (7, 8), (8, 8), (8, 7), (8, 5), (8, 4), (8, 3), (8, 2), (8, 1), (8, 0)]
def formatCellsB (w : Nat) : List Coord :=
  [(8, w - 1), (8, w - 2), (8, w - 3), (8, w - 4), (8, w - 5), (8, w - 6), (8, w - 7), (8, w - 8),
   (w - 7, 8), (w - 6, 8), (w - 5, 8), (w - 4, 8), (w - 3, 8), (w - 2, 8), (w - 1, 8)]

def placeholderPuts (w : Nat) : List Put := (formatCellsA ++ formatCellsB w).map fun o => ⟨o.1, o.2, false⟩

def darkModulePuts (w : Nat) : List Put := [⟨w - 8, 8, Config.darkModuleAtTemplate⟩]

/-- The table of R169, each version with its position list: a transcription apart from the machine's own. -/
def annexE : List (Nat × List Nat) :=
  [(1, []), (2, [6, 18]), (3, [6, 22]), (4, [6, 26]), (5, [6, 30]), (6, [6, 34]), (7, [6, 22, 38]),
   (8, [6, 24, 42]), (9, [6, 26, 46]), (10, [6, 28, 50])] ++
  [(11, [6, 30, 54]), (12, [6, 32, 58]), (13, [6, 34, 62]), (14, [6, 26, 46, 66]), (15, [6, 26, 48, 70]),
   (16, [6, 26, 50, 74]), (17, [6, 30, 54, 78]), (18, [6, 30, 56, 82]), (19, [6, 30, 58, 86]),
   (20, [6, 34, 62, 90])] ++
  [(21, [6, 28, 50, 72, 94]), (22, [6, 26, 50, 74, 98]), (23, [6, 30, 54, 78, 102]), (24, [6, 28, 54, 80, 106]),
   (25, [6, 32, 58, 84, 110]), (26, [6, 30, 58, 86, 114]), (27, [6, 34, 62, 90, 118]),
   (28, [6, 26, 50, 74, 98, 122]), (29, [6, 30, 54, 78, 102, 126]), (30, [6, 26, 52, 78, 104, 130])] ++
  [(31, [6, 30, 56, 82, 108, 134]), (32, [6, 34, 60, 86, 112, 138]), (33, [6, 30, 58, 86, 114, 142]),
   (34, [6, 34, 62, 90, 118, 146]), (35, [6, 30, 54, 78, 102, 126, 150]), (36, [6, 24, 50, 76, 102, 128, 154]),
   (37, [6, 28, 54, 80, 106, 132, 158]), (38, [6, 32, 58, 84, 110, 136, 162]),
   (39, [6, 26, 54, 82, 110, 138, 166]), (40, [6, 30, 58, 86, 114, 142, 170])]

def alignmentPuts (v : Nat) : List Put :=
  let ps := (annexE.lookup v).getD []
  let last := ps.getLast?.getD 6
  ps.flatMap fun pr => ps.flatMap fun pc =>
    if (pr, pc) ∈ [(6, 6), (6, last), (last, 6)] then []
    else (List.range 5).flatMap fun i => (List.range 5).map fun j =>
      ⟨pr + i - 2, pc + j - 2, max ((i : Int) - 2).natAbs ((j : Int) - 2).natAbs != 1⟩

def versionPuts (v : Nat) : List Put :=
  let w := symbolWidth v
  if 7 ≤ v then
    (List.range 18).flatMap fun i =>
      [⟨i / 3, w - 11 + i % 3, (versionWord v).getLsbD i⟩, ⟨w - 11 + i % 3, i / 3, (versionWord v).getLsbD i⟩]
  else []

/-- Every `put` of the build in the order of R161. -/
def stampSequence (v : Nat) : List Put :=
  let w := symbolWidth v
  timingPuts w ++ finderPuts w ++ separatorPuts w ++ placeholderPuts w ++ darkModulePuts w ++ alignmentPuts v ++
    versionPuts v

/-- Cell (r, c) after the puts, from a light unreserved cell. -/
def cellAfter (puts : List Put) (r c : Nat) : Cell :=
  puts.foldl (fun x p => if p.r = r ∧ p.c = c then ⟨p.d, true⟩ else x) ⟨false, false⟩

/-! ## Matrices -/

/-- W × W cells (R40). -/
def Matrix.Square (m : Matrix) (w : Nat) : Prop := m.length = w ∧ ∀ row ∈ m, row.length = w

/-- The `rsv` bits of every cell. -/
def Matrix.rsvMap (m : Matrix) : List (List Bool) := m.map fun row => row.map Cell.rsv

/-! ## Invariants -/

/-- Keys strictly rising. -/
def risingKeys {α : Type} (l : List (Nat × α)) : Prop := l.Pairwise fun x y => x.1 < y.1

/-- The caches hold "either nothing or" the value of the rule for each key in range, degree 1 among them (R43, R44). -/
def CachesCorrect (s : State) : Prop :=
  risingKeys s.genCache ∧ risingKeys s.tplCache ∧
  (∀ e ∈ s.genCache, 1 ≤ e.1 ∧ e.1 ≤ Config.rsMaxDegree ∧ e.2 = gen e.1) ∧
  (∀ e ∈ s.tplCache, 1 ≤ e.1 ∧ e.1 ≤ 40 ∧ e.2 = template e.1) ∧
  cacheFind s.genCache 1 = some [1, 1]

/-- DMEM in canonical form, and the caches correct (R43, R44, R47). -/
def StorageInv (s : State) : Prop := s.dmem.wf = true ∧ CachesCorrect s

/-- The lifecycle flags and the error report (R23, R27, R46, R250, R251, R254): never DONE and ERR together, neither while
BUSY; a report stands only after an error; the latched word is CMD; ARGIDX is 0 but for E_LENGTH and E_RANGE. -/
def LifecycleInv (s : State) : Prop :=
  ¬(s.done = true ∧ s.err = true) ∧
  (s.busy = true → s.done = false ∧ s.err = false ∧ s.errCode = 0 ∧ s.errInfo = 0) ∧
  (s.done = true → s.errCode = 0 ∧ s.errInfo = 0) ∧
  (s.err = true → s.errCode ≠ 0) ∧
  (∀ c, s.inFlight = some c → c.word = s.cmd) ∧
  s.errCode.toNat ≤ 0x0C ∧
  (s.errArgIdx ≠ 0 → s.errArgIdx.toNat ≤ 2 ∧ (s.errCode = 0x07 ∨ s.errCode = 0x08))

/-- The symbol registers and the working matrix (R29 to R35, R40, R41): what each PHASE says of them. -/
def SymbolInv (s : State) : Prop :=
  (s.phase = .empty → s.version = 0 ∧ s.width = 0 ∧ s.capacity = 0 ∧ s.matrix = []) ∧
  (s.phase ≠ .empty →
    1 ≤ s.version.toNat ∧ s.version.toNat ≤ 40 ∧
    s.width.toNat = symbolWidth s.version.toNat ∧
    s.matrix.rsvMap = (template s.version.toNat).rsvMap ∧
    s.capacity.toNat = s.matrix.dataModules) ∧
  (s.phase = .template → s.matrix = template s.version.toNat ∧ s.placed = 0) ∧
  s.placed.toNat ≤ s.capacity.toNat ∧ s.placed.toNat % 8 = 0 ∧
  (s.phase ≠ .final → s.mask = 0xF ∧ s.fmt = 0) ∧
  (s.phase = .final →
    s.mask.toNat < 8 ∧ s.fmt = formatWord (levelIndicator s.level) (s.mask.setWidth 3))

/-- The score registers (R37, R38, R39): SCORE is the sum of PEN; an unscored candidate's registers are 0; while PLACED a
scored candidate's registers hold its score for the working matrix. -/
def ScoreInv (s : State) : Prop :=
  (∀ k, perMask s.score k = (perMask s.pen k).total) ∧
  (∀ k, s.scored.getLsbD (BitVec.toNat k) = false → perMask s.pen k = noPenalty) ∧
  (s.phase = .empty ∨ s.phase = .template → s.scored = 0) ∧
  (s.phase = .placed → ∀ k, s.scored.getLsbD (BitVec.toNat k) = true → perMask s.pen k = s.candidatePenalty k)

/-- Everything the spec promises of a state between two steps. -/
def Inv (s : State) : Prop := StorageInv s ∧ LifecycleInv s ∧ SymbolInv s ∧ ScoreInv s

/-- Two states alike but for the two caches, which "are not visible" (R43, R44). -/
def AlikeButCaches (s t : State) : Prop := t = { s with genCache := t.genCache, tplCache := t.tplCache }

end Sys2Proof.Machine
end

