-- ==== Sys2Proof/Certificates/Slice0/Obligations.lean ====
section
/-! DEFINITION. The statements for the provers, from the numbered rules of spec/. -/

open Sys2Proof Sys2Proof.Machine

/-! ## Encoding (30_encoding.md) -/

/-- Words written out from the bit patterns of R81 and R82 decode to their commands, and two illegal words by name (R90). -/
def Obligations.WrittenOutWordsDecode : Prop :=
  decode 0x00000000#32 = .ok .nop ∧
  decode 0x010053CA#32 = .ok (.gfAdd 0x53#8 0xCA#8) ∧
  decode 0x0503012C#32 = .ok (.gfPow 0x03#8 0x012C#16) ∧
  decode 0x060000FE#32 = .ok (.gfExp 0xFE#8) ∧
  decode 0x11000000#32 = .ok .polyMod ∧
  decode 0x2100000A#32 = .ok (.rsEcc 10#8) ∧
  decode 0x30000702#32 = .ok (.tplLoad 7#8 2#4) ∧
  decode 0x40000000#32 = .ok .place ∧
  decode 0x52000005#32 = .ok (.maskForce 5#3) ∧
  decode 0x04010000#32 = .error (.reservedBitSet 0x04#8) ∧
  decode 0x0F000000#32 = .error (.unknownOpcode 0x0F#8)

/-- R81, R82, R83, R90: every command, at every value of every field, decodes from its word, and a legal word is the encoding
of what it decodes to: no bit is lost or ignored. -/
def Obligations.DecodeAndEncodeAreInverse : Prop :=
  (∀ i : Instr, decode (encode i) = .ok i) ∧ (∀ (w : Word) (i : Instr), decode w = .ok i → encode i = w)

/-- R87: a word decodes as the row it matches, the rows do not overlap, and no other word decodes. -/
def Obligations.DecodeFollowsTheOpcodeTable : Prop :=
  (∀ (w : Word) (i : Instr), decode w = .ok i → opcodeRow i ∈ opcodeRows ∧ (opcodeRow i).Matches w) ∧
  (∀ (w : Word) (row : OpcodeRow), row ∈ opcodeRows → row.Matches w → ∃ i, decode w = .ok i ∧ opcodeRow i = row) ∧
  (∀ (w : Word) (row row' : OpcodeRow), row ∈ opcodeRows → row' ∈ opcodeRows → row.Matches w → row'.Matches w → row = row')

/-! ## Steps (60_exceptions.md, 70_reset_and_hazards.md) -/

/-- The step of the machine, in the model's own names: with its latency over, the command in flight is completed by `exec`
of what its latched word decodes to; otherwise the step is the host's next access, or nothing, and one host step of the
latency passes. Which of the two agents moves is the model's own schedule (log 2, log 3). -/
def Obligations.StepRunsTheDecodedCommand : Prop :=
  (∀ (s : State) (c : InFlight) (i : Instr), s.inFlight = some c → c.delay = 0 → decode c.word = .ok i →
    step s = exec i s) ∧
  (∀ (s : State) (a : HostAccess) (rest : List HostAccess), HostMovesNext s a rest →
    step s = performAccess a (waited s rest)) ∧
  (∀ s : State, s.hostQueue = [] → (∀ c, s.inFlight = some c → 0 < c.delay) → step s = .next (waited s []))

/-- R90: a word that matches no row completes with E_ILLEGAL and ERRINFO = the word, and nothing else changes. `delay = 0`
says that the model's own latency is over (log 2). -/
def Obligations.IllegalWordReportsIllegal : Prop :=
  ∀ (s : State) (c : InFlight), s.inFlight = some c → c.delay = 0 →
    (∀ row ∈ opcodeRows, ¬ row.Matches c.word) → step s = .next (reported s 0x01 0 c.word)

/-- R295: every accepted command completes: with no host access to make, the command in flight runs after its latency, on
the state as it stood. -/
def Obligations.EveryAcceptedCommandCompletes : Prop :=
  ∀ (s : State) (c : InFlight) (i : Instr), s.hostQueue = [] → s.inFlight = some c → decode c.word = .ok i →
    core.run (c.delay + 1) s = exec i { s with inFlight := some { c with delay := 0 } }

/-- R250: acceptance writes CMD, the latch, BUSY, DONE, ERR, ERRCODE and ERRINFO, and no other state of the block. The
latency `d` and the counter `n` are the model's own (log 2) and left open here. -/
def Obligations.CommandWriteIsAccepted : Prop :=
  ∀ (s : State) (w : Word) (rest : List HostAccess), s.inFlight = none → s.hostQueue = .write 0x00C 4 w :: rest →
    ∃ d n, step s = .next { s with
      hostQueue := rest, cmd := w, inFlight := some ⟨w, s.arg0, s.arg1, s.arg2, d⟩, done := false, err := false
      errCode := 0, errArgIdx := 0, errInfo := 0, latencyIndex := n }

/-- R252, R262: a CMD write while BUSY is dropped and sets OVF, which raises IRQ if IE = 1; CMD, the latch and the command in
flight stay. A CMD write while not BUSY never sets OVF. `hostQueue` and `delay` are the model's own fields (log 1, log 2). -/
def Obligations.CommandWriteWhileBusyIsDropped : Prop :=
  ∀ (s : State) (w : Word) (rest : List HostAccess),
    (∀ c, s.inFlight = some c → HostMovesNext s (.write 0x00C 4 w) rest →
      ∃ t, step s = .next t ∧ t.irq = s.ie ∧
        t = { s with hostQueue := rest, inFlight := some { c with delay := c.delay - 1 }, ovf := true }) ∧
    (s.inFlight = none → s.hostQueue = .write 0x00C 4 w :: rest → ∃ t, step s = .next t ∧ t.ovf = s.ovf)

/-- R22, R23, R25, R46, R69, R260, R263, R290: at any time, BUSY or not, STATUS clears exactly those of DONE, ERR, OVF written
as 1, and IRQ follows; CTRL without SRST stores IE, and IRQ follows; ARG0 to ARG2 store the value; a write of a read-only
register (ID, RES0 to SCORED, SCORE, PEN) is ignored. Nothing else changes: the command in flight keeps its latched values. -/
def Obligations.ControlStatusAndArgumentWrites : Prop :=
  ∀ (s : State) (v : Word) (rest : List HostAccess),
    (HostMovesNext s (.write 0x008 4 v) rest →
      ∃ t, step s = .next t ∧ t.irq = (t.ie && (t.done || t.err || t.ovf)) ∧ t = { waited s rest with
        done := s.done && !v.getLsbD 1, err := s.err && !v.getLsbD 2, ovf := s.ovf && !v.getLsbD 3 }) ∧
    (HostMovesNext s (.write 0x004 4 v) rest → v.getLsbD 1 = false →
      ∃ t, step s = .next t ∧ t.irq = (v.getLsbD 0 && (s.done || s.err || s.ovf)) ∧
        t = { waited s rest with ie := v.getLsbD 0 }) ∧
    (HostMovesNext s (.write 0x010 4 v) rest → step s = .next { waited s rest with arg0 := v }) ∧
    (HostMovesNext s (.write 0x014 4 v) rest → step s = .next { waited s rest with arg1 := v }) ∧
    (HostMovesNext s (.write 0x018 4 v) rest → step s = .next { waited s rest with arg2 := v }) ∧
    (∀ o, o = 0x000 ∨ (0x020 ≤ o ∧ o < 0x058) ∨ (0x060 ≤ o ∧ o < 0x100) → o % 4 = 0 →
      HostMovesNext s (.write o 4 v) rest → step s = .next (waited s rest))

/-- R281: a CTRL write with SRST = 1 resets everything but DMEM. DMEM keeps its contents when no command is in flight; the
destination bytes of an aborted command, and no others, become unwritten. DMEM is in its canonical form (StorageInv). Those
bytes are ARG2's address for the result length of the four commands that write DMEM, when their checks pass, and they are
what a completion writes: outside them, or with none, it leaves DMEM, and inside them every byte is written. That an abort
unwrites nothing when the command would have raised an error is the model's reading (log 12). The fields of the host's side
stay (log 17). -/
def Obligations.SoftResetKeepsDmemButAbortedBytes : Prop :=
  (∀ (s : State) (v : Word) (rest : List HostAccess), HostMovesNext s (.write 0x004 4 v) rest → v.getLsbD 1 = true →
    s.dmem.wf = true →
    ∃ m, step s = .next { State.reset with
        dmem := m, hostQueue := rest, readData := s.readData, latencyIndex := s.latencyIndex } ∧
      (s.inFlight = none → m = s.dmem) ∧
      (∀ c e, s.inFlight = some c → decode c.word = .error e → m = s.dmem) ∧
      (∀ c i, s.inFlight = some c → decode c.word = .ok i → ∀ a,
        m.read a =
          match destinationOf s c i with
          | some sp => if sp.addr ≤ a ∧ a < sp.addr + sp.len then none else s.dmem.read a
          | none => s.dmem.read a)) ∧
  (∀ (s : State) (c : InFlight),
    let la := (sourceSpan c.arg0).len
    let lb := (sourceSpan c.arg1).len
    (SourceOk 1 c.arg0 → SourceOk 1 c.arg1 → DestOk (la + lb - 1) c.arg2 →
      destinationOf s c .polyMul = some ⟨destAddr c.arg2, la + lb - 1⟩) ∧
    (SourceOk 0 c.arg0 → SourceOk 2 c.arg1 → DestOk (lb - 1) c.arg2 →
      s.dmem.read (sourceSpan c.arg1).addr = none ∨ s.dmem.read (sourceSpan c.arg1).addr = some 1 →
      destinationOf s c .polyMod = some ⟨destAddr c.arg2, lb - 1⟩) ∧
    (∀ n : BitVec 8, 1 ≤ n.toNat → n.toNat ≤ Config.rsMaxDegree →
      (DestOk (n.toNat + 1) c.arg2 → destinationOf s c (.rsGen n) = some ⟨destAddr c.arg2, n.toNat + 1⟩) ∧
      (SourceOk 0 c.arg0 → DestOk n.toNat c.arg2 →
        destinationOf s c (.rsEcc n) = some ⟨destAddr c.arg2, n.toNat⟩))) ∧
  (∀ (s t : State) (c : InFlight) (i : Instr), CachesCorrect s → s.inFlight = some c → exec i s = .next t →
    match destinationOf s c i with
    | some sp => ∀ a, if sp.addr ≤ a ∧ a < sp.addr + sp.len then t.dmem.read a ≠ none else t.dmem.read a = s.dmem.read a
    | none => t.dmem = s.dmem)

/-- R21, R280: hardware reset gives the reset state but keeps DMEM's contents. In the reset state every register reads 0 but
ID and MASK, every cell is light and unreserved, no DMEM byte has a value, nothing is in flight, IRQ is 0, and the caches
hold degree 1 and nothing. The fields of the host's side stay (log 17). -/
def Obligations.HardwareResetValues : Prop :=
  (∀ (s : State) (rest : List HostAccess), HostMovesNext s .hardReset rest →
    step s = .next { State.reset with
      dmem := s.dmem, hostQueue := rest, readData := s.readData, latencyIndex := s.latencyIndex }) ∧
  (∀ p ∈ registerMap State.reset, p.2 = if p.1 = 0x000 then 0x51524331 else if p.1 = 0x040 then 0xF else 0) ∧
  (∀ r c, State.reset.matrix.cell r c = ⟨false, false⟩) ∧
  (∀ a, State.reset.dmem.read a = none) ∧ State.reset.inFlight = none ∧ State.reset.irq = false ∧
  State.reset.genCache = [(1, [0x01, 0x01])] ∧ State.reset.tplCache = []

/-! ## Host accesses (20_memory.md) -/

/-- R21 to R39, R69, R290: a 32-bit read of a mapped register returns it, BUSY or not, and changes nothing of the block. -/
def Obligations.RegisterReadsReturnTheRegister : Prop :=
  ∀ (s : State) (p : Nat × Word) (rest : List HostAccess), p ∈ registerMap s → HostMovesNext s (.read p.1 4) rest →
    step s = .next { waited s rest with readData := some p.2 }

/-- R69: "Reads of every offset have no side effects": whatever is read, only the data delivered changes. -/
def Obligations.ReadsHaveNoSideEffects : Prop :=
  ∀ (s t : State) (offset bytes : Nat) (rest : List HostAccess), HostMovesNext s (.read offset bytes) rest →
    step s = .next t → t = { waited s rest with readData := t.readData }

/-- R63, R64: an aligned 8-, 16- or 32-bit DMEM write stores byte j of the value at offset a + j and nothing elsewhere, and a
read of the same width gives those bits back, zero-extended
(log 20). -/
def Obligations.DmemAccessesAreLittleEndian : Prop :=
  ∀ (s : State) (a n : Nat) (v : Word) (rest : List HostAccess), n = 1 ∨ n = 2 ∨ n = 4 → a % n = 0 →
    a < Config.dmemSize → s.inFlight = none → s.hostQueue = .write (0x1000 + a) n v :: .read (0x1000 + a) n :: rest →
    ∃ m t, step s = .next { s with hostQueue := .read (0x1000 + a) n :: rest, dmem := m } ∧
      (∀ j, j < n → m.read (a + j) = some (v.extractLsb' (8 * j) 8)) ∧
      (∀ b, b < a ∨ a + n ≤ b → m.read b = s.dmem.read b) ∧
      step { s with hostQueue := .read (0x1000 + a) n :: rest, dmem := m } = .next t ∧
      t = { s with hostQueue := rest, dmem := m, readData := some (word (v.toNat % 2 ^ (8 * n))) }

/-- R62, R63, R64: the window byte of (r, c) is {rsv, dark} inside the matrix and 0 outside it or with no template; an aligned
8-, 16- or 32-bit read at (r, c) gives the bytes of (r, c), (r, c + 1), ... in its bytes 0, 1, .... A write of any form that
covers a window byte is ignored. `hostQueue` and `readData` are the model's own fields (log 1); that a narrow read's upper
bits are 0 is the model's choice (log 20). -/
def Obligations.WindowShowsTheWorkingMatrix : Prop :=
  ∀ (s : State) (rest : List HostAccess), s.inFlight = none →
    (∀ r c n : Nat, r < 256 → c < 256 → n = 1 ∨ n = 2 ∨ n = 4 → c % n = 0 →
      s.hostQueue = .read (0x10000 + 256 * r + c) n :: rest →
      let byte : Nat → Byte := fun j =>
        let x := s.matrix.cell r (c + j)
        if s.phase ≠ .empty ∧ r < s.width.toNat ∧ c + j < s.width.toNat then
          BitVec.ofNat 8 ((if x.rsv then 2 else 0) + (if x.dark then 1 else 0))
        else 0
      ∃ d : Word, step s = .next { s with hostQueue := rest, readData := some d } ∧
        (∀ j, j < n → d.extractLsb' (8 * j) 8 = byte j) ∧ d.toNat < 2 ^ (8 * n)) ∧
    (∀ (o n : Nat) (v : Word), 0x1000 + Config.dmemSize ≤ o → o < 0x20000 → 0x10000 < o + n →
      s.hostQueue = .write o n v :: rest → step s = .next { s with hostQueue := rest })

/-- R49, R64, R69: reserved offsets read 0 and ignore writes, BUSY or not: every natural 8-, 16- and 32-bit access at one, the
register words R49 names and the range between DMEM and the window. That an access of another form, all of whose bytes are
reserved, does the same is the model's reading (log 8). -/
def Obligations.ReservedOffsetsReadZero : Prop :=
  ∀ (s : State) (o n : Nat) (v : Word) (rest : List HostAccess), Reserved o →
    ((n = 1 ∨ n = 2 ∨ n = 4) ∧ o % n = 0) ∨ (∀ j, j < n → Reserved (o + j)) →
    (HostMovesNext s (.read o n) rest → step s = .next { waited s rest with readData := some 0 }) ∧
    (HostMovesNext s (.write o n v) rest → step s = .next (waited s rest))

/-- R64, R70, R290: every access "refused", each a refusal by name: an access at a register offset that is not 32 bits wide
and 4-aligned, unless all its bytes are reserved; a DMEM access, or a read of window bytes, that is not 8, 16 or 32 bits wide
and naturally aligned; and while BUSY any access to DMEM or the window. That window writes while BUSY are refused follows
R70 and I6 (log 10); that a read which reaches the window from the reserved offsets is the window's is log 9. -/
def Obligations.RefusedAccesses : Prop :=
  ∀ (s : State) (rest : List HostAccess) (v : Word) (o n : Nat),
    let natural := (n = 1 ∨ n = 2 ∨ n = 4) ∧ o % n = 0
    let inDmem := 0x1000 ≤ o ∧ o < 0x1000 + Config.dmemSize
    let inWindow := o < 0x20000 ∧ (0x10000 ≤ o ∨ (0x1000 + Config.dmemSize ≤ o ∧ 0x10000 < o + n))
    let readStops := fun r => HostMovesNext s (.read o n) rest → step s = .refused r
    let writeStops := fun r => HostMovesNext s (.write o n v) rest → step s = .refused r
    (o < 0x1000 → (∃ j, j < n ∧ ¬ Reserved (o + j)) → ¬(n = 4 ∧ o % 4 = 0) →
      readStops .registerAccessForm ∧ writeStops .registerAccessForm) ∧
    (inDmem → ¬ natural → s.inFlight = none → readStops .dmemAccessForm ∧ writeStops .dmemAccessForm) ∧
    (inWindow → ¬ natural → s.inFlight = none → readStops .windowAccessForm) ∧
    (inDmem → s.inFlight ≠ none → readStops .dmemWhileBusy ∧ writeStops .dmemWhileBusy) ∧
    (inWindow → s.inFlight ≠ none → readStops .windowWhileBusy ∧ writeStops .windowWhileBusy)

/-- R68: reading an unwritten DMEM byte is a fault, by the host or through a source descriptor of a command whose operands
pass the checks that come before its reads. -/
def Obligations.UnwrittenByteFaults : Prop :=
  ∀ (s : State) (c : InFlight) (rest : List HostAccess),
    (∀ a n j, n = 1 ∨ n = 2 ∨ n = 4 → a % n = 0 → a < Config.dmemSize → j < n → s.dmem.read (a + j) = none →
      s.inFlight = none → s.hostQueue = .read (0x1000 + a) n :: rest → step s = .fault .dmemUnwritten) ∧
    (s.inFlight = some c → SourceOk 1 c.arg0 → SourceOk 1 c.arg1 →
      DestOk ((sourceSpan c.arg0).len + (sourceSpan c.arg1).len - 1) c.arg2 →
      sourceBytes s c.arg0 = none ∨ sourceBytes s c.arg1 = none → exec .polyMul s = .fault .dmemUnwritten) ∧
    (s.inFlight = some c → SourceOk 0 c.arg0 → SourceOk 2 c.arg1 → DestOk ((sourceSpan c.arg1).len - 1) c.arg2 →
      sourceBytes s c.arg0 = none ∨ sourceBytes s c.arg1 = none → exec .polyMod s = .fault .dmemUnwritten) ∧
    (∀ n : BitVec 8, s.inFlight = some c → 1 ≤ n.toNat → n.toNat ≤ Config.rsMaxDegree → SourceOk 0 c.arg0 →
      DestOk n.toNat c.arg2 → sourceBytes s c.arg0 = none → exec (.rsEcc n) s = .fault .dmemUnwritten) ∧
    (s.inFlight = some c → s.phase = .template → SourceOk 0 c.arg0 → 8 * (sourceSpan c.arg0).len ≤ s.capacity.toNat →
      sourceBytes s c.arg0 = none → exec .place s = .fault .dmemUnwritten)

/-! ## System and scalar commands (45_system.md, 40_gf.md) -/

/-- R240: NOP completes with DONE and CMD_COUNT + 1, and nothing else changes. -/
def Obligations.NopOnlyCompletes : Prop :=
  ∀ (s : State) (c : InFlight), s.inFlight = some c → exec .nop s = .next (completed s)

/-- R112, R113, R104: GF.ADD and GF.SUB complete on every operand with RES0 = A XOR B, and nothing else changes. -/
def Obligations.GfAddAndSubCompleteWithXor : Prop :=
  ∀ (s : State) (c : InFlight) (a b : Byte), s.inFlight = some c →
    exec (.gfAdd a b) s = .next (completed { s with res0 := (a ^^^ b).setWidth 32 }) ∧
    exec (.gfSub a b) s = .next (completed { s with res0 := (a ^^^ b).setWidth 32 })

/-- R114, R4: GF.MUL completes on every operand with RES0 = the product reduced by 0x11D, and nothing else changes. -/
def Obligations.GfMulCompletesWithReducedProduct : Prop :=
  ∀ (s : State) (c : InFlight) (a b : Byte), s.inFlight = some c →
    exec (.gfMul a b) s = .next (completed { s with res0 := (reducedProduct a b).setWidth 32 })

/-- R115, R106: for B ≠ 0 GF.DIV completes with the unique q whose product with B is A, and nothing else changes. -/
def Obligations.GfDivCompletesWithUniqueQuotient : Prop :=
  ∀ (s : State) (c : InFlight) (a b : Byte), s.inFlight = some c → b ≠ 0 →
    ∃ q : Byte, exec (.gfDiv a b) s = .next (completed { s with res0 := q.setWidth 32 }) ∧
      gfmul q b = a ∧ ∀ q', gfmul q' b = a → q' = q

/-- R116, R107: unless A = 0 and E = 0 GF.POW completes with A multiplied by itself E times, and nothing else changes. -/
def Obligations.GfPowCompletesWithFoldedProduct : Prop :=
  ∀ (s : State) (c : InFlight) (a : Byte) (e : BitVec 16), s.inFlight = some c → ¬(a = 0 ∧ e = 0) →
    exec (.gfPow a e) s = .next (completed { s with res0 := (foldedProduct a e.toNat).setWidth 32 })

/-- R117, R118, R100, R101: for A ≠ 255 GF.EXP completes with 2^A by repeated doubling; for A ≠ 0 GF.LOG completes with the
index 0..254 at which doubling gives A. Nothing else changes. -/
def Obligations.GfExpAndLogCompleteWithTableValues : Prop :=
  ∀ (s : State) (c : InFlight) (a : Byte), s.inFlight = some c →
    (a ≠ 255 → exec (.gfExp a) s = .next (completed { s with res0 := (powerOfTwo a.toNat).setWidth 32 })) ∧
    (a ≠ 0 → ∃ i : Nat, i < 255 ∧ powerOfTwo i = a ∧
      exec (.gfLog a) s = .next (completed { s with res0 := BitVec.ofNat 32 i }))

/-- R115, R116, R117, R118, R254: the value errors of the scalar commands, with the command word or the operand as ERRINFO. -/
def Obligations.ScalarValueErrors : Prop :=
  ∀ (s : State) (c : InFlight), s.inFlight = some c →
    (∀ a : Byte, exec (.gfDiv a 0) s = .next (reported s 0x09 0 c.word)) ∧
    exec (.gfPow 0 0) s = .next (reported s 0x09 0 c.word) ∧
    exec (.gfExp 255) s = .next (reported s 0x06 0 255) ∧
    exec (.gfLog 0) s = .next (reported s 0x0A 0 0)

/-- R108: the field laws, for nonzero a and b where the rule says so. -/
def Obligations.FieldLaws : Prop :=
  (∀ a b : Byte, a ≠ 0 → b ≠ 0 → ∃ q, gfdiv a b = some q ∧ gfmul q b = a) ∧
  (∀ a b : Byte, gfmul a b = gfmul b a) ∧ (∀ a : Byte, gfadd a a = 0) ∧
  (∀ a : Byte, a ≠ 0 → gfpow a 1 = some a) ∧ gfpow 2 255 = some 1 ∧
  (∀ a b c : Byte, gfmul (gfmul a b) c = gfmul a (gfmul b c)) ∧
  (∀ a b c : Byte, gfmul a (gfadd b c) = gfadd (gfmul a b) (gfmul a c)) ∧
  (∀ a : Byte, gfmul a 1 = a) ∧ (∀ a : Byte, a ≠ 0 → gfpow a 255 = some 1)

/-! ## Polynomials and Reed-Solomon (40_gf.md, 41_rs.md) -/

/-- R119: with operands in range and written, POLY.MUL completes: the product's la + lb − 1 bytes at the destination, every
other byte of DMEM as before, RES0 = the length, and nothing else changes. -/
def Obligations.PolyMulCompletes : Prop :=
  ∀ (s : State) (c : InFlight) (a b : List Byte), s.inFlight = some c → SourceOk 1 c.arg0 → SourceOk 1 c.arg1 →
    DestOk (a.length + b.length - 1) c.arg2 → sourceBytes s c.arg0 = some a → sourceBytes s c.arg1 = some b →
    ∃ m, exec .polyMul s = .next (completed { s with dmem := m, res0 := word (a.length + b.length - 1) }) ∧
      StoresExactly s.dmem m (destAddr c.arg2) (convolution a b)

/-- R120: with operands in range and written and a monic divisor, POLY.MOD completes: the remainder's ld − 1 bytes at the
destination, every other byte of DMEM as before, RES0 = ld − 1, and nothing else changes. -/
def Obligations.PolyModCompletes : Prop :=
  ∀ (s : State) (c : InFlight) (p d : List Byte), s.inFlight = some c → SourceOk 0 c.arg0 → SourceOk 2 c.arg1 →
    DestOk (d.length - 1) c.arg2 → sourceBytes s c.arg0 = some p → sourceBytes s c.arg1 = some d → d.head? = some 1 →
    ∃ m r, IsRemainder p d r ∧
      exec .polyMod s = .next (completed { s with dmem := m, res0 := word (d.length - 1) }) ∧
      StoresExactly s.dmem m (destAddr c.arg2) r

/-- R119, R257: POLY.MUL's descriptor errors in the order ARG0, ARG1, ARG2, length before range. -/
def Obligations.PolyMulOperandErrorsInOrder : Prop :=
  ∀ (s : State) (c : InFlight), s.inFlight = some c →
    ((sourceSpan c.arg0).len < 1 → exec .polyMul s = .next (reported s 0x07 0 c.arg0)) ∧
    (1 ≤ (sourceSpan c.arg0).len → ¬ SourceOk 1 c.arg0 → exec .polyMul s = .next (reported s 0x08 0 c.arg0)) ∧
    (SourceOk 1 c.arg0 → (sourceSpan c.arg1).len < 1 → exec .polyMul s = .next (reported s 0x07 1 c.arg1)) ∧
    (SourceOk 1 c.arg0 → 1 ≤ (sourceSpan c.arg1).len → ¬ SourceOk 1 c.arg1 →
      exec .polyMul s = .next (reported s 0x08 1 c.arg1)) ∧
    (SourceOk 1 c.arg0 → SourceOk 1 c.arg1 → ¬ DestOk ((sourceSpan c.arg0).len + (sourceSpan c.arg1).len - 1) c.arg2 →
      exec .polyMul s = .next (reported s 0x08 2 c.arg2))

/-- R120, R257: POLY.MOD's errors in order, E_DIVISOR with d[0] last. -/
def Obligations.PolyModOperandErrorsInOrder : Prop :=
  ∀ (s : State) (c : InFlight), s.inFlight = some c →
    (¬ SourceOk 0 c.arg0 → exec .polyMod s = .next (reported s 0x08 0 c.arg0)) ∧
    (SourceOk 0 c.arg0 → (sourceSpan c.arg1).len < 2 → exec .polyMod s = .next (reported s 0x07 1 c.arg1)) ∧
    (SourceOk 0 c.arg0 → 2 ≤ (sourceSpan c.arg1).len → ¬ SourceOk 2 c.arg1 →
      exec .polyMod s = .next (reported s 0x08 1 c.arg1)) ∧
    (SourceOk 0 c.arg0 → SourceOk 2 c.arg1 → ¬ DestOk ((sourceSpan c.arg1).len - 1) c.arg2 →
      exec .polyMod s = .next (reported s 0x08 2 c.arg2)) ∧
    (∀ (p d : List Byte) (x : Byte), SourceOk 0 c.arg0 → SourceOk 2 c.arg1 → DestOk (d.length - 1) c.arg2 →
      sourceBytes s c.arg0 = some p → sourceBytes s c.arg1 = some d → d.head? = some x → x ≠ 1 →
      exec .polyMod s = .next (reported s 0x0B 0 (x.setWidth 32)))

/-- R140, R141: every gen(n), n ≥ 1, has exactly n + 1 coefficients and leading coefficient 1; for every degree a command takes
its roots are 2^0 .. 2^(n−1). -/
def Obligations.GeneratorIsMonicWithItsRoots : Prop :=
  (∀ n, 1 ≤ n → (gen n).length = n + 1 ∧ (gen n).head? = some 1) ∧
  (∀ n i, 1 ≤ n → n ≤ Config.rsMaxDegree → i < n → evalPoly (gen n) (powerOfTwo i) = 0)

/-- R144: the codeword data ++ ecc(data, n) is a multiple of gen(n), for every length of data. -/
def Obligations.CodewordIsAMultipleOfTheGenerator : Prop :=
  ∀ (data : List Byte) (n : Nat), 1 ≤ n → n ≤ Config.rsMaxDegree →
    (ecc data n).length = n ∧ polymod (data ++ ecc data n) (gen n) = zeros n

/-- R145, R146: with the degree in range, operands in range and written, and correct caches, RS.GEN stores gen(N) and RS.ECC
stores ecc(data, N), every other byte of DMEM as before, RES0 = the length. Nothing visible else changes; the invisible
generator cache `g` may (R43, R142). -/
def Obligations.ReedSolomonCommandsComplete : Prop :=
  ∀ (s : State) (c : InFlight) (n : BitVec 8), s.inFlight = some c → CachesCorrect s → 1 ≤ n.toNat →
    n.toNat ≤ Config.rsMaxDegree →
    (DestOk (n.toNat + 1) c.arg2 →
      ∃ m g, exec (.rsGen n) s =
          .next (completed { s with dmem := m, res0 := word (n.toNat + 1), genCache := g }) ∧
        StoresExactly s.dmem m (destAddr c.arg2) (gen n.toNat)) ∧
    (∀ data : List Byte, SourceOk 0 c.arg0 → DestOk n.toNat c.arg2 → sourceBytes s c.arg0 = some data →
      ∃ m g, exec (.rsEcc n) s = .next (completed { s with dmem := m, res0 := word n.toNat, genCache := g }) ∧
        StoresExactly s.dmem m (destAddr c.arg2) (ecc data n.toNat))

/-- R145, R146, R257: the errors of RS.GEN and RS.ECC in order: degree, ARG0's range, ARG2's range. -/
def Obligations.ReedSolomonErrorsInOrder : Prop :=
  ∀ (s : State) (c : InFlight) (n : BitVec 8), s.inFlight = some c →
    (¬(1 ≤ n.toNat ∧ n.toNat ≤ Config.rsMaxDegree) →
      exec (.rsGen n) s = .next (reported s 0x05 0 (n.setWidth 32)) ∧
      exec (.rsEcc n) s = .next (reported s 0x05 0 (n.setWidth 32))) ∧
    (1 ≤ n.toNat → n.toNat ≤ Config.rsMaxDegree →
      (¬ DestOk (n.toNat + 1) c.arg2 → exec (.rsGen n) s = .next (reported s 0x08 2 c.arg2)) ∧
      (¬ SourceOk 0 c.arg0 → exec (.rsEcc n) s = .next (reported s 0x08 0 c.arg0)) ∧
      (SourceOk 0 c.arg0 → ¬ DestOk n.toNat c.arg2 → exec (.rsEcc n) s = .next (reported s 0x08 2 c.arg2)))

/-! ## Template and placement (42_template.md, 43_placement.md) -/

/-- R161 to R170: for every version each cell of the template is what the sequence of puts leaves in it. R169: the alignment
positions are the lists of its table, whose first entry is 6, last entry W − 7, and every entry even. R173: the data modules
of versions 1, 2 and 7 are 208, 359 and 1568. -/
def Obligations.TemplateIsTheStampSequence : Prop :=
  (∀ v r c, 1 ≤ v → v ≤ 40 → r < symbolWidth v → c < symbolWidth v →
    (template v).cell r c = cellAfter (stampSequence v) r c) ∧
  annexE.map Prod.fst = List.range' 1 40 ∧
  (∀ e ∈ annexE, alignmentPositions e.1 = e.2 ∧ (∀ p ∈ e.2, p % 2 = 0) ∧
    (2 ≤ e.1 → e.2.head? = some 6 ∧ e.2.getLast? = some (symbolWidth e.1 - 7))) ∧
  (template 1).dataModules = 208 ∧ (template 2).dataModules = 359 ∧ (template 7).dataModules = 1568

/-- R175: for VER in 1..40 and LVL in 0..3, with correct caches, TPL.LOAD completes: the working matrix is the template, the
symbol and score registers start anew. Nothing visible else changes; the invisible prototype cache `p` may (R44). -/
def Obligations.TplLoadCompletes : Prop :=
  ∀ (s : State) (c : InFlight) (ver : BitVec 8) (lvl : BitVec 4), s.inFlight = some c → CachesCorrect s →
    1 ≤ ver.toNat → ver.toNat ≤ 40 → lvl.toNat ≤ 3 →
    ∃ p, exec (.tplLoad ver lvl) s = .next (completed { s with
      matrix := template ver.toNat
      version := BitVec.ofNat 6 ver.toNat, width := BitVec.ofNat 8 (21 + 4 * (ver.toNat - 1)), level := BitVec.ofNat 2 lvl.toNat
      phase := .template, mask := 0xF, fmt := 0
      capacity := BitVec.ofNat 16 (template ver.toNat).dataModules, placed := 0
      scored := 0, score := noScores, pen := noPenalties
      res0 := word (21 + 4 * (ver.toNat - 1)), res1 := word (template ver.toNat).dataModules
      tplCache := p })

/-- R175: TPL.LOAD's errors in order: VER outside 1..40 is E_VERSION with VER; else LVL above 3 is E_LEVEL with LVL. -/
def Obligations.TplLoadErrorsInOrder : Prop :=
  ∀ (s : State) (c : InFlight) (ver : BitVec 8) (lvl : BitVec 4), s.inFlight = some c →
    (¬(1 ≤ ver.toNat ∧ ver.toNat ≤ 40) → exec (.tplLoad ver lvl) s = .next (reported s 0x03 0 (ver.setWidth 32))) ∧
    (1 ≤ ver.toNat → ver.toNat ≤ 40 → 3 < lvl.toNat →
      exec (.tplLoad ver lvl) s = .next (reported s 0x04 0 (lvl.setWidth 32)))

/-- R190, R191: in every matrix of an odd width of a version, the zigzag order goes over the column pairs from the right,
column 6 skipped, the first pair upward and each next pair the other way, the right cell before the left, and keeps the
cells not reserved. So in a template it visits every non-reserved cell exactly once and no other, its length is CAPACITY, and
it never visits column 6; for version 1 it begins and ends as R191 lists. -/
def Obligations.ZigzagVisitsEachDataModuleOnce : Prop :=
  (∀ (m : Matrix) (v : Nat), 1 ≤ v → v ≤ 40 →
    let w := symbolWidth v
    zigzag m w = (List.range ((w - 1) / 2)).flatMap fun pair =>
      let right := if 6 < w - 1 - 2 * pair then w - 1 - 2 * pair else w - 2 - 2 * pair
      (List.range w).flatMap fun i =>
        let r := if pair % 2 = 0 then w - 1 - i else i
        [(r, right), (r, right - 1)].filter fun rc => !(m.cell rc.1 rc.2).rsv) ∧
  (∀ v, 1 ≤ v → v ≤ 40 →
    let z := zigzag (template v) (symbolWidth v)
    z.Nodup ∧ z.length = (template v).dataModules ∧ (∀ r, (r, 6) ∉ z) ∧
    ∀ r c, (r, c) ∈ z ↔ r < symbolWidth v ∧ c < symbolWidth v ∧ ((template v).cell r c).rsv = false) ∧
  (zigzag (template 1) 21).take 6 = [(20, 20), (20, 19), (19, 20), (19, 19), (18, 20), (18, 19)] ∧
  (zigzag (template 1) 21).drop 200 = [(9, 1), (9, 0), (10, 1), (10, 0), (11, 1), (11, 0), (12, 1), (12, 0)]

/-- R195: in PHASE = TEMPLATE, with the sequence in range, written and not longer than CAPACITY, PLACE completes: only the
matrix, PLACED, PHASE, RES0 and RES1 change. -/
def Obligations.PlaceCompletes : Prop :=
  ∀ (s : State) (c : InFlight) (bs : List Byte), s.inFlight = some c → s.phase = .template → SourceOk 0 c.arg0 →
    sourceBytes s c.arg0 = some bs → 8 * bs.length ≤ s.capacity.toNat →
    exec .place s = .next (completed { s with
      matrix := placeBits (zigzag s.matrix s.width.toNat) (sequenceBits bs) s.matrix
      placed := BitVec.ofNat 16 (8 * bs.length), phase := .placed
      res0 := word (8 * bs.length), res1 := word (s.capacity.toNat - 8 * bs.length) })

/-- R195, R257: PLACE's errors in order: E_SEQUENCE with PHASE, E_RANGE with ARG0, E_PLACE_EXHAUSTED with 8·ls. -/
def Obligations.PlaceErrorsInOrder : Prop :=
  ∀ (s : State) (c : InFlight), s.inFlight = some c →
    (s.phase ≠ .template → exec .place s = .next (reported s 0x02 0 (s.phase.code.setWidth 32))) ∧
    (s.phase = .template → ¬ SourceOk 0 c.arg0 → exec .place s = .next (reported s 0x08 0 c.arg0)) ∧
    (s.phase = .template → SourceOk 0 c.arg0 → s.capacity.toNat < 8 * (sourceSpan c.arg0).len →
      exec .place s = .next (reported s 0x0C 0 (word (8 * (sourceSpan c.arg0).len))))

/-- R192, R193, R194, R196: after PLACE in a state of the invariant, module Z[8j + t] holds bit 7 − t of codeword j, and after
MASK.FORCE or MASK.OPT has applied mask k that bit XOR mask_k; modules off the placed part of Z keep their colour under
PLACE. -/
def Obligations.PlacementRoundTrip : Prop :=
  ∀ (s t u : State) (c d : InFlight) (bs : List Byte) (k : BitVec 3) (i : Instr), Inv s → s.inFlight = some c →
    sourceBytes s c.arg0 = some bs → s.phase = .template → exec .place s = .next t → t.phase = .placed →
    i = .maskForce k ∨ i = .maskOpt → exec i { t with inFlight := some d } = .next u → u.mask = BitVec.ofNat 4 k.toNat →
    let z := zigzag s.matrix s.width.toNat
    (∀ j b, j < bs.length → b < 8 →
      let rc := z.getD (8 * j + b) (0, 0)
      let bit := (bs.getD j 0).getLsbD (7 - b)
      (t.matrix.cell rc.1 rc.2).dark = bit ∧ (u.matrix.cell rc.1 rc.2).dark = (bit ^^ maskPredicate k rc.1 rc.2)) ∧
    (∀ r col, (r, col) ∉ z.take (8 * bs.length) → t.matrix.cell r col = s.matrix.cell r col)

/-! ## Masks (44_mask.md) -/

/-- R210, R211: the eight predicates as R210 lists them; candidate k flips every non-reserved cell whose predicate is true, and
changes no other bit of any cell. -/
def Obligations.CandidateFlipsMaskedDataModules : Prop :=
  (∀ r c : Nat,
    (maskPredicate 0 r c = true ↔ (r + c) % 2 = 0) ∧ (maskPredicate 1 r c = true ↔ r % 2 = 0) ∧
    (maskPredicate 2 r c = true ↔ c % 3 = 0) ∧ (maskPredicate 3 r c = true ↔ (r + c) % 3 = 0) ∧
    (maskPredicate 4 r c = true ↔ (r / 2 + c / 3) % 2 = 0) ∧
    (maskPredicate 5 r c = true ↔ r * c % 2 + r * c % 3 = 0) ∧
    (maskPredicate 6 r c = true ↔ (r * c % 2 + r * c % 3) % 2 = 0) ∧
    (maskPredicate 7 r c = true ↔ ((r + c) % 2 + r * c % 3) % 2 = 0)) ∧
  ∀ (m : Matrix) (w : Nat) (k : BitVec 3) (r c : Nat), m.Square w → r < w → c < w →
    ((candidate k m).cell r c).rsv = (m.cell r c).rsv ∧
    ((candidate k m).cell r c).dark = ((m.cell r c).dark ^^ (!(m.cell r c).rsv && maskPredicate k r c))

/-- R213, R214: in a line a maximal run of n cells adds n − 2 when n ≥ 5 and nothing otherwise, and the rest of the line counts
on its own; rule A adds up the W rows and the W columns. -/
def Obligations.RuleACountsMaximalRuns : Prop :=
  lineRunPoints [] = 0 ∧
  (∀ (n : Nat) (b : Bool) (rest : List Bool), 1 ≤ n → rest.head? ≠ some b →
    lineRunPoints (List.replicate n b ++ rest) = (if n ≥ 5 then n - 2 else 0) + lineRunPoints rest) ∧
  ∀ (m : Matrix) (w : Nat), m.Square w →
    ruleA w m = ((List.range w).map fun x =>
      lineRunPoints ((List.range w).map fun j => (m.cell x j).dark) +
      lineRunPoints ((List.range w).map fun j => (m.cell j x).dark)).sum

/-- R215, R216: rule B adds 3 for each 2 × 2 window whose four cells are all dark or all light; rule C adds 40 for each window
of 11 cells of a row or column that equals one of the two patterns. -/
def Obligations.RulesBAndCCountWindows : Prop :=
  ∀ (m : Matrix) (w : Nat), m.Square w →
    let isPattern := fun l : List Bool =>
      l = [true, false, true, true, true, false, true, false, false, false, false] ∨
      l = [false, false, false, false, true, false, true, true, true, false, true]
    ruleB m = ((List.range (w - 1)).map fun r => ((List.range (w - 1)).map fun c =>
      let sum := (m.cell r c).dark.toNat + (m.cell r (c + 1)).dark.toNat + (m.cell (r + 1) c).dark.toNat +
        (m.cell (r + 1) (c + 1)).dark.toNat
      if sum = 0 ∨ sum = 4 then 3 else 0).sum).sum ∧
    ruleC w m = ((List.range w).map fun x => ((List.range (w - 10)).map fun i =>
      (if isPattern ((List.range 11).map fun j => (m.cell x (i + j)).dark) then 40 else 0) +
      (if isPattern ((List.range 11).map fun j => (m.cell (i + j) x).dark) then 40 else 0)).sum).sum

/-- R217: with q = 100·dk/T the exact percentage, rule D is ten times |q − 50| / 5 rounded down under EXACT, and the same of q
truncated under FLOOR_PERCENT; the two differ exactly when q lies strictly between a multiple of 5, at most 45, and that
multiple plus 1. -/
def Obligations.RuleDScoresTheBalance : Prop :=
  ∀ (m : Matrix) (w : Nat), m.Square w → 0 < w →
    let dk : Nat := ((List.range w).map fun r => (List.range w).countP fun c => (m.cell r c).dark).sum
    let q : ℚ := 100 * (dk : ℚ) / ((w : ℚ) * w)
    ruleD .exact w m = 10 * ⌊|q - 50| / 5⌋₊ ∧ ruleD .floorPercent w m = 10 * ⌊|(⌊q⌋ : ℚ) - 50| / 5⌋₊ ∧
    (ruleD .exact w m ≠ ruleD .floorPercent w m ↔ ∃ j : Nat, j ≤ 9 ∧ 5 * (j : ℚ) < q ∧ q < 5 * (j : ℚ) + 1)

/-- R225: the format write puts bit i of the word at FA[i] and FB[i] and makes the dark module dark; every other cell and
every `rsv` bit stays. -/
def Obligations.FormatWriteCells : Prop :=
  ∀ (m : Matrix) (w : Nat) (fw : BitVec 15), 21 ≤ w → m.Square w →
    (∀ i, i < 15 →
      let a := formatCellsA.getD i (0, 0)
      let b := (formatCellsB w).getD i (0, 0)
      ((writeFormat w fw m).cell a.1 a.2).dark = fw.getLsbD i ∧ ((writeFormat w fw m).cell b.1 b.2).dark = fw.getLsbD i) ∧
    ((writeFormat w fw m).cell (w - 8) 8).dark = true ∧
    (∀ r c, ((writeFormat w fw m).cell r c).rsv = (m.cell r c).rsv) ∧
    (∀ r c, (r, c) ∉ formatCellsA → (r, c) ∉ formatCellsB w → (r, c) ≠ (w - 8, 8) →
      (writeFormat w fw m).cell r c = m.cell r c)

/-- R221, R222, R220: the 32 format words by level and mask, each {indicator, mask} followed by the remainder that makes it a
multiple of 0x537 once 0x5412 is taken off; R171: the 34 version words, each the version followed by the remainder that makes
it a multiple of 0x1F25. -/
def Obligations.FormatAndVersionWordsAreCodewords : Prop :=
  ((List.range 8).map fun k => [0#2, 1#2, 2#2, 3#2].map fun level =>
      (formatWord (levelIndicator level) (BitVec.ofNat 3 k)).toNat) =
    [[0x77C4, 0x5412, 0x355F, 0x1689], [0x72F3, 0x5125, 0x3068, 0x13BE], [0x7DAA, 0x5E7C, 0x3F31, 0x1CE7],
     [0x789D, 0x5B4B, 0x3A06, 0x19D0], [0x662F, 0x45F9, 0x24B4, 0x0762], [0x6318, 0x40CE, 0x2183, 0x0255],
     [0x6C41, 0x4F97, 0x2EDA, 0x0D0C], [0x6976, 0x4AA0, 0x2BED, 0x083B]] ∧
  ((List.range 34).map fun i => (versionWord (7 + i)).toNat) =
    [0x07C94, 0x085BC, 0x09A99, 0x0A4D3, 0x0BBF6, 0x0C762, 0x0D847, 0x0E60D, 0x0F928, 0x10B78, 0x1145D, 0x12A17,
     0x13532, 0x149A6, 0x15683, 0x168C9, 0x177EC, 0x18EC4, 0x191E1, 0x1AFAB, 0x1B08E, 0x1CC1A, 0x1D33F, 0x1ED75] ++
    [0x1F250, 0x209D5, 0x216F0, 0x228BA, 0x2379F, 0x24B0B, 0x2542E, 0x26A64, 0x27541, 0x28C69] ∧
  (∀ (ind : BitVec 2) (k : BitVec 3),
    let x := formatWord ind k ^^^ 0x5412#15
    x.extractLsb' 10 5 = ind ++ k ∧ gf2Remainder 0x537 10 5 x.toNat = 0) ∧
  (∀ v, 7 ≤ v → v ≤ 40 →
    (versionWord v).toNat / 2 ^ 12 = v ∧ gf2Remainder 0x1F25 12 6 (versionWord v).toNat = 0)

/-- R227: in PHASE = PLACED, MASK.SCORE K completes: PEN[K] is the four sub-scores of candidate K, SCORE[K] and RES0 their
sum, bit K of SCORED is set; the matrix, PHASE and everything else stay. -/
def Obligations.MaskScoreCompletes : Prop :=
  ∀ (s : State) (c : InFlight) (k : BitVec 3), s.inFlight = some c → s.phase = .placed →
    let m := candidate k s.matrix
    let w := s.width.toNat
    let p : Penalty := ⟨word (ruleA w m), word (ruleB m), word (ruleC w m), word (ruleD Config.balanceMode w m)⟩
    let total := p.a + p.b + p.c + p.d
    ∃ pen score, exec (.maskScore k) s = .next (completed { s with
        pen := pen, score := score, scored := s.scored ||| (1#8 <<< k.toNat), res0 := total }) ∧
      perMask pen k = p ∧ perMask score k = total ∧
      (∀ j, j ≠ k → perMask pen j = perMask s.pen j ∧ perMask score j = perMask s.score j)

/-- R228: in PHASE = PLACED, MASK.OPT completes: all eight candidates are scored, the winner of R219 is applied and its
format word written. -/
def Obligations.MaskOptCompletes : Prop :=
  ∀ (s : State) (c : InFlight), s.inFlight = some c → s.phase = .placed →
    ∃ pen score best, exec .maskOpt s = .next (completed { s with
        pen := pen, score := score, scored := 0xFF
        matrix := writeFormat s.width.toNat (formatWord (levelIndicator s.level) best) (candidate best s.matrix)
        fmt := formatWord (levelIndicator s.level) best, mask := BitVec.ofNat 4 best.toNat, phase := .final
        res0 := word best.toNat, res1 := perMask score best }) ∧
      (∀ k, perMask pen k = s.candidatePenalty k ∧
        perMask score k = (perMask pen k).a + (perMask pen k).b + (perMask pen k).c + (perMask pen k).d) ∧
      (∀ k, (perMask score best).toNat ≤ (perMask score k).toNat) ∧
      (∀ k, k < best → (perMask score best).toNat < (perMask score k).toNat)

/-- R229: in PHASE = PLACED, MASK.FORCE K completes: mask K applied, its format word written, RES0 = K, RES1 = the word;
SCORE, PEN and SCORED stay. -/
def Obligations.MaskForceCompletes : Prop :=
  ∀ (s : State) (c : InFlight) (k : BitVec 3), s.inFlight = some c → s.phase = .placed →
    let fw := formatWord (levelIndicator s.level) k
    exec (.maskForce k) s = .next (completed { s with
      matrix := writeFormat s.width.toNat fw (candidate k s.matrix)
      fmt := fw, mask := BitVec.ofNat 4 k.toNat, phase := .final, res0 := word k.toNat, res1 := word fw.toNat })

/-- R227, R228, R229, R256: in any other PHASE the mask commands raise E_SEQUENCE with PHASE. -/
def Obligations.MaskCommandsNeedPlacedPhase : Prop :=
  ∀ (s : State) (c : InFlight), s.inFlight = some c → s.phase ≠ .placed →
    let outcome := .next (reported s 0x02 0 (s.phase.code.setWidth 32))
    (∀ k, exec (.maskScore k) s = outcome) ∧ exec .maskOpt s = outcome ∧ (∀ k, exec (.maskForce k) s = outcome)

/-! ## The whole machine -/

/-- R251, R259, R263, R266: from a state with DONE = ERR = 0, as acceptance leaves it, a completion sets exactly one of DONE
and ERR, clears BUSY, counts one command mod 2^32, and raises IRQ exactly when IE = 1. -/
def Obligations.CompletionSetsOneFlagAndCounts : Prop :=
  ∀ (i : Instr) (s t : State), s.done = false → s.err = false → exec i s = .next t →
    (t.done = !t.err) ∧ t.busy = false ∧ t.cmdCount = s.cmdCount + 1 ∧ t.irq = s.ie

/-- R253: a completion with an error, an illegal word's too, changes nothing but the lifecycle and error registers.
`delay = 0` says that the model's own latency is over (log 2). -/
def Obligations.ErrorCompletionsHaveNoOtherEffect : Prop :=
  ∀ (s t : State) (c : InFlight), s.inFlight = some c → c.delay = 0 → s.err = false → step s = .next t → t.err = true →
    t = reported s t.errCode t.errArgIdx t.errInfo

/-- R22, R24, R25, R242: no command writes CTRL, CMD, ARG0 to ARG2 or OVF, and none touches the host's side. -/
def Obligations.CommandsKeepTheHostRegisters : Prop :=
  ∀ (i : Instr) (s t : State), exec i s = .next t →
    t.ie = s.ie ∧ t.ovf = s.ovf ∧ t.cmd = s.cmd ∧ t.arg0 = s.arg0 ∧ t.arg1 = s.arg1 ∧ t.arg2 = s.arg2 ∧
    t.hostQueue = s.hostQueue ∧ t.readData = s.readData ∧ t.latencyIndex = s.latencyIndex

/-- R41: TPL.LOAD, PLACE, MASK.OPT and MASK.FORCE are the only commands that write the working matrix, and TPL.LOAD the only
one that writes a `rsv` bit. -/
def Obligations.OnlyFourCommandsWriteTheMatrix : Prop :=
  ∀ (i : Instr) (s t : State), exec i s = .next t → (∀ ver lvl, i ≠ .tplLoad ver lvl) →
    t.matrix.rsvMap = s.matrix.rsvMap ∧
    (i ≠ .place → i ≠ .maskOpt → (∀ k, i ≠ .maskForce k) → t.matrix = s.matrix ∧ t.phase = s.phase)

/-- R46, R250: a command uses the latched arguments: the ARG registers and CMD may hold anything at completion. -/
def Obligations.CommandsUseTheLatchedArguments : Prop :=
  ∀ (i : Instr) (s : State) (w x y z : Word),
    exec i { s with cmd := w, arg0 := x, arg1 := y, arg2 := z } =
      match exec i s with
      | .next t => .next { t with cmd := w, arg0 := x, arg1 := y, arg2 := z }
      | .fault f => .fault f
      | .refused r => .refused r

/-- R226, R256: once FINAL the symbol does not change: every step keeps PHASE, the matrix, VERSION, WIDTH, LEVEL, FMT and MASK,
unless it completes a TPL.LOAD, which leaves PHASE = TEMPLATE, or is the reset input or a CTRL write with SRST = 1, which
leave PHASE = EMPTY. -/
def Obligations.FinalSymbolStaysUntilReplaced : Prop :=
  ∀ s t : State, s.phase = .final → step s = .next t →
    (t.phase = .final ∧ t.matrix = s.matrix ∧ t.version = s.version ∧ t.width = s.width ∧ t.level = s.level ∧
      t.fmt = s.fmt ∧ t.mask = s.mask) ∨
    (t.phase = .template ∧ ∃ c ver lvl, s.inFlight = some c ∧ c.delay = 0 ∧ decode c.word = .ok (.tplLoad ver lvl)) ∨
    (t.phase = .empty ∧ ∃ a rest, HostMovesNext s a rest ∧
      (a = .hardReset ∨ ∃ v, a = .write 0x004 4 v ∧ v.getLsbD 1 = true))

/-- R43, R44, R142, R175: the caches are not visible: two states alike but for their caches, both correct, take the same step
but for the caches, and stay correct. -/
def Obligations.CachesAreInvisible : Prop :=
  ∀ s s' : State, CachesCorrect s → CachesCorrect s' → AlikeButCaches s s' →
    (∀ t, step s = .next t → ∃ t', step s' = .next t' ∧ AlikeButCaches t t' ∧ CachesCorrect t ∧ CachesCorrect t') ∧
    (∀ f, step s = .fault f → step s' = .fault f) ∧ (∀ r, step s = .refused r → step s' = .refused r)

/-- R29 to R35, R37 to R41, R43, R44, R47, R250, R251: every step keeps the invariant: DMEM canonical, caches correct, the
lifecycle flags and report, the symbol registers against the working matrix, the score registers. -/
def Obligations.StepKeepsTheInvariant : Prop := ∀ s t : State, Inv s → step s = .next t → Inv t

/-- R280: the invariant holds after reset. -/
def Obligations.ResetMeetsTheInvariant : Prop := Inv State.reset
end

