-- ==== Sys2Proof/Laws/Field.lean ====
section
/-! SUPPORT. The two tables of the field are inverse to each other, and the cache's lookup laws. -/

namespace Sys2Proof.Machine

/-- LOG[EXP[i]] = i on 0..254 (R101). -/
theorem logAt_expAt : ∀ i : Fin 255, logAt (expAt i.val) = i.val := by decide +kernel

/-- EXP[LOG[a]] = a for every nonzero byte, and LOG[a] is 0..254 (R101). -/
theorem expAt_logAt : ∀ i : Fin 256, i.val ≠ 0 →
    expAt (logAt (BitVec.ofNat 8 i.val)) = BitVec.ofNat 8 i.val ∧ logAt (BitVec.ofNat 8 i.val) < 255 := by
  decide +kernel

/-- A published key is found: with its earlier entry, if it had one. -/
theorem cacheFind_publish_same {α : Type} (l : List (Nat × α)) (k : Nat) (a : α)
    (h : l.Pairwise fun x y => x.1 < y.1) : cacheFind (cachePublish l k a) k = some ((cacheFind l k).getD a) := by
  induction l with
  | nil => simp [cachePublish, cacheFind]
  | cons x l ih =>
    obtain ⟨x, v⟩ := x
    have ht := List.pairwise_cons.mp h
    have none_of_lt : ∀ l' : List (Nat × α), (∀ y ∈ l', k < y.1) → cacheFind l' k = none := by
      intro l' hl
      induction l' with
      | nil => rfl
      | cons y l' ih' =>
        have hy := hl y (by simp)
        rw [cacheFind, if_neg (by omega), ih' fun z hz => hl z (by simp [hz])]
    simp only [cachePublish]
    split
    · rename_i hk
      have : cacheFind ((x, v) :: l) k = none := by
        apply none_of_lt
        intro y hy
        rcases List.mem_cons.mp hy with rfl | hy
        · exact hk
        · exact Nat.lt_trans hk (ht.1 y hy)
      rw [cacheFind, if_pos rfl, this, Option.getD_none]
    · split
      · rename_i hk; subst hk; simp [cacheFind]
      · rename_i hk; simp [cacheFind, hk, ih ht.2]

/-- Publishing leaves every other key alone. -/
theorem cacheFind_publish_other {α : Type} {l : List (Nat × α)} {k k' : Nat} {a : α} (h : k' ≠ k) :
    cacheFind (cachePublish l k a) k' = cacheFind l k' := by
  induction l with
  | nil => simp [cachePublish, cacheFind, h]
  | cons x l ih =>
    obtain ⟨x, v⟩ := x
    simp only [cachePublish]
    split
    · simp [cacheFind, h]
    · split
      · rfl
      · simp [cacheFind, ih]

end Sys2Proof.Machine
end

