-- ==== Sys2Proof/Laws/HostPort.lean ====
section
/-! SUPPORT. What a host step is, said once, and the tests of an access's form as propositions. -/

namespace Sys2Proof.Machine

/-- When the host moves next, the step is its access, one host step of the latency later. -/
theorem step_of_hostMovesNext {s : State} {a : HostAccess} {rest : List HostAccess} (h : HostMovesNext s a rest) :
    step s = performAccess a (waited s rest) := by
  obtain ⟨hq, hd⟩ := h
  unfold step
  cases hs : s.inFlight with
  | none => simp [hostStep, hq, waited, hs]
  | some c =>
    have := hd c hs
    obtain ⟨n, hn⟩ : ∃ n, c.delay = n + 1 := ⟨c.delay - 1, by omega⟩
    simp [hn, hostStep, waitOneStep, hq, waited, hs]

/-- Waiting keeps BUSY. -/
@[simp] theorem waited_busy (s : State) (rest : List HostAccess) : (waited s rest).busy = s.busy := by
  simp [waited, State.busy]

theorem reservedOffset_iff {o : Nat} : reservedOffset o = true ↔ Reserved o := by
  unfold reservedOffset Reserved dmemBase windowBase
  exact decide_eq_true_iff

/-- An access with a byte that is not reserved is no reserved access. -/
theorem reservedAccess_of_not_reserved {o n j : Nat} (hj : j < n) (h : ¬ Reserved (o + j)) :
    reservedAccess o n = false := by
  rw [← reservedOffset_iff] at h
  simp only [reservedAccess, Bool.and_eq_false_iff, List.all_eq_false]
  exact .inr ⟨j, List.mem_range.2 hj, h⟩

/-- An access at an offset that is not reserved is no reserved access. -/
theorem reservedAccess_of_offset {o n : Nat} (h : ¬ Reserved o) : reservedAccess o n = false := by
  rw [← reservedOffset_iff] at h
  simp [reservedAccess, h]

/-- A natural access at a reserved offset, or an access of reserved bytes only, is a reserved access. -/
theorem reservedAccess_of_reserved {o n : Nat} (ho : Reserved o)
    (h : ((n = 1 ∨ n = 2 ∨ n = 4) ∧ o % n = 0) ∨ ∀ j, j < n → Reserved (o + j)) : reservedAccess o n = true := by
  have all : ∀ j, j < n → Reserved (o + j) := by
    rcases h with ⟨hn, ha⟩ | h
    · intro j hj
      simp only [Reserved, Config.dmemSize] at ho ⊢
      rcases hn with rfl | rfl | rfl <;> omega
    · exact h
  simp only [reservedAccess, Bool.and_eq_true, List.all_eq_true, List.mem_range, reservedOffset_iff]
  exact ⟨ho, all⟩

theorem naturalAccess_iff {o n : Nat} : naturalAccess o n = true ↔ (n = 1 ∨ n = 2 ∨ n = 4) ∧ o % n = 0 := by
  simp [naturalAccess, or_assoc]

end Sys2Proof.Machine
end

