-- ==== Sys2Proof/Laws/Lifecycle.lean ====
section
/-! SUPPORT. What each shared operation can answer, said once: `withCommand`, `readSource`, the operand checks, a host access, a step. -/

namespace Sys2Proof.Machine

theorem State.withCommand_of_some {s : State} {c : InFlight} {k : InFlight → Result} (h : s.inFlight = some c) :
    s.withCommand k = k c := by
  simp [State.withCommand, h]

/-- A command answers a next state only while one is in flight. -/
theorem State.withCommand_eq_next {s t : State} {k : InFlight → Result} :
    s.withCommand k = .next t ↔ ∃ c, s.inFlight = some c ∧ k c = .next t := by
  unfold State.withCommand
  cases s.inFlight <;> simp

theorem State.succeed_eq_next {s t : State} : s.succeed = .next t ↔ t = s.finish := by
  simp [State.succeed, eq_comm]

theorem State.fail_eq_next {s t : State} {n : ErrorName} {i : BitVec 4} {v : Word} :
    s.fail n i v = .next t ↔ t = s.raise ⟨n, i, v⟩ := by
  simp [State.fail, eq_comm]

theorem State.readSource_of_some {s : State} {sp : Span} {bs : List Byte} {k : List Byte → Result}
    (h : s.dmem.readBytes sp.addr sp.len = some bs) : s.readSource sp k = k bs := by
  simp [State.readSource, h]

/-- A source read answers a next state only when every byte it covers is written. -/
theorem State.readSource_eq_next {s t : State} {sp : Span} {k : List Byte → Result} :
    s.readSource sp k = .next t ↔ ∃ bs, s.dmem.readBytes sp.addr sp.len = some bs ∧ k bs = .next t := by
  unfold State.readSource
  cases s.dmem.readBytes sp.addr sp.len <;> simp

/-- A source descriptor passes when its length and range do. -/
theorem checkSource_eq_ok {i : BitVec 4} {n : Nat} {d : Word} {sp : Span} :
    checkSource i n d = .ok sp ↔
      n ≤ (sourceSpan d).len ∧ (sourceSpan d).addr + (sourceSpan d).len ≤ Config.dmemSize ∧ sp = sourceSpan d := by
  unfold checkSource
  simp only
  split
  · simp; omega
  · split
    · simp; omega
    · simp only [Except.ok.injEq, eq_comm (a := sourceSpan d)]
      constructor
      · exact fun h => ⟨by omega, by omega, h⟩
      · exact fun h => h.2.2

/-- A destination passes when its bytes fit. -/
theorem checkDest_eq_ok {n : Nat} {d : Word} {sp : Span} :
    checkDest n d = .ok sp ↔ destAddr d + n ≤ Config.dmemSize ∧ sp = ⟨destAddr d, n⟩ := by
  unfold checkDest
  split
  · simp; omega
  · simp only [Except.ok.injEq, eq_comm (a := (⟨destAddr d, n⟩ : Span))]
    constructor
    · exact fun h => ⟨by omega, h⟩
    · exact fun h => h.2

theorem checkDegree_eq_ok {n : BitVec 8} {d : Nat} :
    checkDegree n = .ok d ↔ 1 ≤ n.toNat ∧ n.toNat ≤ Config.rsMaxDegree ∧ d = n.toNat := by
  unfold checkDegree
  split
  · simp; omega
  · simp only [Except.ok.injEq, eq_comm (a := n.toNat)]
    constructor
    · exact fun h => ⟨by omega, by omega, h⟩
    · exact fun h => h.2.2

/-- A read changes only the data delivered to the host. -/
theorem hostRead_eq_next {o n : Nat} {s t : State} (h : hostRead o n s = .next t) :
    ∃ v, t = { s with readData := some v } := by
  unfold hostRead at h
  repeat' split at h
  all_goals try cases h
  all_goals try exact ⟨_, rfl⟩
  obtain ⟨bs, _, h⟩ := State.readSource_eq_next.mp h
  cases h
  exact ⟨_, rfl⟩

/-- A write is ignored, writes a register, or writes DMEM bytes that lie inside DMEM, while not BUSY. -/
theorem hostWrite_eq_next {o n : Nat} {v : Word} {s t : State} (h : hostWrite o n v s = .next t) :
    t = s ∨ t = s.writeRegister o v ∨
    (s.busy = false ∧ ∃ a, a + n ≤ Config.dmemSize ∧
      t = { s with dmem := s.dmem.writeBytes a (littleEndianBytes v n) }) := by
  unfold hostWrite at h
  repeat' split at h
  all_goals try cases h
  all_goals try exact .inl rfl
  all_goals try exact .inr (.inl rfl)
  rename_i hb hn
  refine .inr (.inr ⟨by simpa using hb, o - dmemBase, ?_, rfl⟩)
  have := hn.2
  omega

/-- What a register write can do. -/
theorem State.writeRegister_cases (s : State) (o : Nat) (v : Word) :
    s.writeRegister o v = s ∨ s.writeRegister o v = s.softReset ∨
    s.writeRegister o v = { s with ie := v.getLsbD 0 } ∨ s.writeRegister o v = s.writeStatus v ∨
    (s.busy = true ∧ s.writeRegister o v = { s with ovf := true }) ∨
    (s.busy = false ∧ s.writeRegister o v = s.accept v) ∨
    s.writeRegister o v = { s with arg0 := v } ∨ s.writeRegister o v = { s with arg1 := v } ∨
    s.writeRegister o v = { s with arg2 := v } := by
  unfold State.writeRegister State.writeCtrl State.writeCmd
  repeat' split
  all_goals simp_all

/-- The STATUS write, flag by flag. -/
theorem State.writeStatus_eq (s : State) (v : Word) :
    s.writeStatus v = { s with
      done := s.done && !v.getLsbD 1, err := s.err && !v.getLsbD 2, ovf := s.ovf && !v.getLsbD 3 } := by
  unfold State.writeStatus State.returnFromError
  cases v.getLsbD 1 <;> cases v.getLsbD 2 <;> cases v.getLsbD 3 <;> simp

/-- A step completes the command in flight, or makes the host's next access, or passes. -/
theorem step_eq_next {s t : State} (h : step s = .next t) :
    (∃ c, s.inFlight = some c ∧ c.delay = 0 ∧ completeCommand c s = .next t) ∨
    (s.inFlight = none ∧ hostStep s = .next t) ∨
    (∃ c, s.inFlight = some c ∧ 0 < c.delay ∧ hostStep (waitOneStep c s) = .next t) := by
  unfold step at h
  split at h
  · exact .inr (.inl ⟨‹_›, h⟩)
  · rename_i c hc
    split at h
    · exact .inl ⟨c, hc, ‹_›, h⟩
    · rename_i n hn
      exact .inr (.inr ⟨c, hc, by omega, h⟩)

/-- A completion runs the decoded command, or reports an illegal word. -/
theorem completeCommand_eq_next {c : InFlight} {s t : State} (h : completeCommand c s = .next t) :
    (∃ i, decode c.word = .ok i ∧ exec i s = .next t) ∨
    (∃ e, decode c.word = .error e ∧ t = s.raise ⟨.illegal, 0, c.word⟩) := by
  unfold completeCommand at h
  split at h
  · exact .inl ⟨_, ‹_›, h⟩
  · exact .inr ⟨_, ‹_›, State.fail_eq_next.mp h⟩

/-- With no access left, a host step changes nothing. -/
theorem hostStep_of_nil {s : State} (h : s.hostQueue = []) : hostStep s = .next s := by
  simp [hostStep, h]

theorem hostStep_of_cons {s : State} {a : HostAccess} {rest : List HostAccess} (h : s.hostQueue = a :: rest) :
    hostStep s = performAccess a { s with hostQueue := rest } := by
  simp [hostStep, h]

end Sys2Proof.Machine
end

