-- ==== Sys2Proof/Laws/Matrix.lean ====
section
/-! SUPPORT. Laws of the working matrix's operations, cell by cell. -/

namespace Sys2Proof.Machine

/-- The cells of a tabulated matrix. -/
theorem Matrix.cell_tabulate {w r c : Nat} {f : Nat → Nat → Cell} (hr : r < w) (hc : c < w) :
    (Matrix.tabulate w f).cell r c = f r c := by
  simp [Matrix.cell, Matrix.tabulate, hr, hc]

/-- Outside its width a tabulated matrix has no cell. -/
theorem Matrix.cell_tabulate_outside {w r c : Nat} {f : Nat → Nat → Cell} (h : w ≤ r ∨ w ≤ c) :
    (Matrix.tabulate w f).cell r c = ⟨false, false⟩ := by
  unfold Matrix.cell Matrix.tabulate
  by_cases hr : r < w
  · have hc : w ≤ c := by omega
    simp [hr, hc]
  · simp [Nat.not_lt.mp hr]

theorem Matrix.length_mapCells (m : Matrix) (f : Nat → Nat → Cell → Cell) : (m.mapCells f).length = m.length := by
  simp [Matrix.mapCells]

/-- The cells of a mapped matrix, inside the matrix. -/
theorem Matrix.cell_mapCells {m : Matrix} {f : Nat → Nat → Cell → Cell} {r c : Nat} {row : List Cell} {x : Cell}
    (hr : m[r]? = some row) (hc : row[c]? = some x) : (m.mapCells f).cell r c = f r c x := by
  simp [Matrix.cell, Matrix.mapCells, hr, hc]

/-- A map that keeps `rsv` keeps it at every place. -/
theorem Matrix.cell_mapCells_rsv {m : Matrix} {f : Nat → Nat → Cell → Cell} (hf : ∀ r c x, (f r c x).rsv = x.rsv)
    (r c : Nat) : ((m.mapCells f).cell r c).rsv = (m.cell r c).rsv := by
  unfold Matrix.cell Matrix.mapCells
  cases hr : m[r]? with
  | none => simp [hr]
  | some row => cases hc : row[c]? <;> simp [hr, hc, hf]

/-- Setting one cell's colour: that cell, if the matrix has it, and no other. -/
theorem Matrix.cell_setDark {m : Matrix} {r c r' c' : Nat} {d : Bool} :
    (m.setDark r c d).cell r' c' =
      if (r', c') = (r, c) ∧ r < m.length ∧ c < (m[r]?.getD []).length then { m.cell r c with dark := d }
      else m.cell r' c' := by
  unfold Matrix.cell Matrix.setDark
  by_cases hr : r' = r
  · subst hr
    by_cases hlt : r' < m.length
    · by_cases hc : c' = c
      · subst hc
        by_cases hcl : c' < (m[r']).length
        · simp [hlt, hcl]
        · simp [hlt, hcl]
      · simp [hlt, hc, Ne.symm hc]
    · simp [hlt]
  · simp [Ne.symm hr, hr]

/-- Setting a colour changes no `rsv` bit. -/
theorem Matrix.cell_setDark_rsv (m : Matrix) (r c r' c' : Nat) (d : Bool) :
    ((m.setDark r c d).cell r' c').rsv = (m.cell r' c').rsv := by
  rw [Matrix.cell_setDark]
  split
  · rename_i h; simp only [Prod.mk.injEq] at h; obtain ⟨⟨rfl, rfl⟩, _⟩ := h; rfl
  · rfl

end Sys2Proof.Machine
end

