-- ==== Sys2Proof/Laws/Memory.lean ====
section
/-! SUPPORT. Laws of DMEM: a read after a write, a write elsewhere, and the canonical form every operation keeps. -/

namespace Sys2Proof.Machine

@[simp] theorem Memory.read_nil (a : Nat) : Memory.read [] a = none := rfl

theorem Memory.read_cons (x : Nat) (v : Byte) (m : Memory) (a : Nat) :
    Memory.read ((x, v) :: m) a = if a = x then some v else Memory.read m a := rfl

/-- A read after a write to the same place gives the value written. -/
@[simp] theorem Memory.read_write_same (m : Memory) (a : Nat) (b : Byte) : (m.write a b).read a = some b := by
  induction m with
  | nil => simp [Memory.write, Memory.read_cons]
  | cons x m ih =>
    obtain ⟨x, v⟩ := x
    simp only [Memory.write]
    split
    · simp [Memory.read_cons]
    · split
      · simp [Memory.read_cons]
      · rename_i h; simp [Memory.read_cons, h, ih]

/-- A write leaves every other place alone. -/
theorem Memory.read_write_other {m : Memory} {a a' : Nat} {b : Byte} (h : a' ≠ a) : (m.write a b).read a' = m.read a' := by
  induction m with
  | nil => simp [Memory.write, Memory.read_cons, h]
  | cons x m ih =>
    obtain ⟨x, v⟩ := x
    simp only [Memory.write]
    split
    · simp [Memory.read_cons, h]
    · split
      · rename_i hx; subst hx; simp [Memory.read_cons, h]
      · simp [Memory.read_cons, ih]

/-- Writing bytes leaves every place outside them alone. -/
theorem Memory.read_writeBytes_other {m : Memory} {a a' : Nat} {bs : List Byte} (h : a' < a ∨ a + bs.length ≤ a') :
    (m.writeBytes a bs).read a' = m.read a' := by
  induction bs generalizing m a with
  | nil => rfl
  | cons b bs ih =>
    simp only [List.length_cons] at h
    rw [Memory.writeBytes, ih (by omega), Memory.read_write_other (by omega)]

/-- Each byte written is read back. -/
theorem Memory.read_writeBytes {m : Memory} {a j : Nat} {bs : List Byte} (h : j < bs.length) :
    (m.writeBytes a bs).read (a + j) = bs[j]? := by
  induction bs generalizing m a j with
  | nil => simp at h
  | cons b bs ih =>
    rw [Memory.writeBytes]
    cases j with
    | zero => rw [Memory.read_writeBytes_other (by omega)]; simp
    | succ j =>
      have := ih (m := m.write a b) (a := a + 1) (j := j) (by simpa using h)
      rw [show a + (j + 1) = a + 1 + j by omega, this]; simp

/-- Reads depend only on the bytes they cover. -/
theorem Memory.readBytes_congr {m m' : Memory} {a n : Nat} (h : ∀ j, j < n → m.read (a + j) = m'.read (a + j)) :
    m.readBytes a n = m'.readBytes a n := by
  induction n generalizing a with
  | zero => rfl
  | succ n ih =>
    have h0 := h 0 (by omega)
    rw [Nat.add_zero] at h0
    rw [Memory.readBytes, Memory.readBytes, h0,
      ih (a := a + 1) fun j hj => by rw [show a + 1 + j = a + (j + 1) by omega]; exact h _ (by omega)]

/-- The bytes written are read back whole. -/
@[simp] theorem Memory.readBytes_writeBytes (m : Memory) (a : Nat) (bs : List Byte) :
    (m.writeBytes a bs).readBytes a bs.length = some bs := by
  induction bs generalizing m a with
  | nil => rfl
  | cons b bs ih =>
    rw [Memory.writeBytes, List.length_cons, Memory.readBytes, Memory.read_writeBytes_other (by omega), ih,
      Memory.read_write_same]

/-- A read of n bytes gives n bytes. -/
theorem Memory.length_readBytes {m : Memory} {a n : Nat} {bs : List Byte} (h : m.readBytes a n = some bs) :
    bs.length = n := by
  induction n generalizing a bs with
  | zero => simp only [Memory.readBytes, Option.some.injEq] at h; subst h; rfl
  | succ n ih =>
    simp only [Memory.readBytes] at h
    split at h
    · rename_i b bs' _ h'
      simp only [Option.some.injEq] at h
      subst h
      simp [ih h']
    · cases h

/-! ## The canonical form -/

theorem Memory.wfFrom_mono {m : Memory} {lo lo' : Nat} (h : Memory.wfFrom lo m = true) (hlo : lo' ≤ lo) :
    Memory.wfFrom lo' m = true := by
  cases m with
  | nil => rfl
  | cons x m =>
    simp only [Memory.wfFrom, Bool.and_eq_true, decide_eq_true_eq] at h ⊢
    exact ⟨⟨by omega, h.1.2⟩, h.2⟩

theorem Memory.write_wfFrom {m : Memory} {lo a : Nat} {b : Byte} (h : Memory.wfFrom lo m = true) (hlo : lo ≤ a)
    (ha : a < Config.dmemSize) : Memory.wfFrom lo (m.write a b) = true := by
  induction m generalizing lo with
  | nil => simp [Memory.write, Memory.wfFrom, hlo, ha]
  | cons x m ih =>
    obtain ⟨x, v⟩ := x
    simp only [Memory.wfFrom, Bool.and_eq_true, decide_eq_true_eq] at h
    simp only [Memory.write]
    split
    · simp only [Memory.wfFrom, Bool.and_eq_true, decide_eq_true_eq]
      exact ⟨⟨hlo, ha⟩, ⟨by omega, h.1.2⟩, h.2⟩
    · split
      · rename_i hx; subst hx
        simp only [Memory.wfFrom, Bool.and_eq_true, decide_eq_true_eq]; exact h
      · simp only [Memory.wfFrom, Bool.and_eq_true, decide_eq_true_eq]
        exact ⟨h.1, ih h.2 (by omega)⟩

theorem Memory.erase_wfFrom {m : Memory} {lo a : Nat} (h : Memory.wfFrom lo m = true) :
    Memory.wfFrom lo (m.erase a) = true := by
  induction m generalizing lo with
  | nil => rfl
  | cons x m ih =>
    obtain ⟨x, v⟩ := x
    simp only [Memory.wfFrom, Bool.and_eq_true, decide_eq_true_eq] at h
    simp only [Memory.erase]
    split
    · exact Memory.wfFrom_mono h.2 (by omega)
    · simp only [Memory.wfFrom, Bool.and_eq_true, decide_eq_true_eq]
      exact ⟨h.1, ih h.2⟩

/-- Writing a byte inside DMEM keeps the canonical form. -/
theorem Memory.write_wf {m : Memory} {a : Nat} {b : Byte} (h : m.wf = true) (ha : a < Config.dmemSize) :
    (m.write a b).wf = true := Memory.write_wfFrom h (Nat.zero_le a) ha

/-- Writing bytes inside DMEM keeps the canonical form. -/
theorem Memory.writeBytes_wf {m : Memory} {a : Nat} {bs : List Byte} (h : m.wf = true)
    (ha : a + bs.length ≤ Config.dmemSize) : (m.writeBytes a bs).wf = true := by
  induction bs generalizing m a with
  | nil => exact h
  | cons b bs ih =>
    simp only [List.length_cons] at ha
    exact ih (Memory.write_wf h (by omega)) (by omega)

/-- Erasing bytes keeps the canonical form. -/
theorem Memory.eraseBytes_wf {m : Memory} {a n : Nat} (h : m.wf = true) : (m.eraseBytes a n).wf = true := by
  induction n generalizing m a with
  | zero => exact h
  | succ n ih => exact ih (Memory.erase_wfFrom h)

theorem Memory.read_none_of_wfFrom {m : Memory} {lo a : Nat} (h : Memory.wfFrom lo m = true) (ha : a < lo) :
    m.read a = none := by
  induction m generalizing lo with
  | nil => rfl
  | cons x m ih =>
    obtain ⟨x, v⟩ := x
    simp only [Memory.wfFrom, Bool.and_eq_true, decide_eq_true_eq] at h
    rw [Memory.read_cons, if_neg (by omega), ih h.2 (by omega)]

theorem Memory.read_erase_from {m : Memory} {lo a a' : Nat} (h : Memory.wfFrom lo m = true) :
    (m.erase a).read a' = if a' = a then none else m.read a' := by
  induction m generalizing lo with
  | nil => simp [Memory.erase]
  | cons x m ih =>
    obtain ⟨x, v⟩ := x
    simp only [Memory.wfFrom, Bool.and_eq_true, decide_eq_true_eq] at h
    simp only [Memory.erase]
    split
    · rename_i hx
      subst hx
      split
      · rename_i ha; subst ha; exact Memory.read_none_of_wfFrom h.2 (by omega)
      · rename_i ha; simp [Memory.read_cons, ha]
    · rename_i hx
      rw [Memory.read_cons, Memory.read_cons, ih h.2]
      split
      · rename_i ha; subst ha; simp [Ne.symm hx]
      · rfl

/-- Erasing a byte of a canonical DMEM leaves it unwritten and every other place alone. -/
theorem Memory.read_erase {m : Memory} {a a' : Nat} (h : m.wf = true) :
    (m.erase a).read a' = if a' = a then none else m.read a' := Memory.read_erase_from h

/-- Erasing bytes of a canonical DMEM leaves exactly them unwritten. -/
theorem Memory.read_eraseBytes {m : Memory} {a n a' : Nat} (h : m.wf = true) :
    (m.eraseBytes a n).read a' = if a ≤ a' ∧ a' < a + n then none else m.read a' := by
  induction n generalizing m a with
  | zero => rw [Memory.eraseBytes, if_neg (by omega)]
  | succ n ih =>
    have hw : (m.erase a).wf = true := Memory.erase_wfFrom h
    rw [Memory.eraseBytes, ih hw, Memory.read_erase h]
    by_cases h1 : a + 1 ≤ a' ∧ a' < a + 1 + n
    · rw [if_pos h1, if_pos (by omega)]
    · rw [if_neg h1]
      by_cases h2 : a' = a
      · rw [if_pos h2, if_pos (by omega)]
      · rw [if_neg h2, if_neg (by omega)]

/-- Reset's DMEM has the canonical form. -/
theorem reset_dmem_wf : State.reset.dmem.wf = true := rfl

end Sys2Proof.Machine
end

