-- ==== Sys2Proof/Laws/PerInstr.lean ====
section
/-! SUPPORT. One law per command: the word the encoder gives a command matches that command's row of the R87 table. -/

namespace Sys2Proof.Laws.OpcodeRow

open Sys2Proof Sys2Proof.Machine

/-- The command's word matches its row: the opcode is the row's and every bit the row's mask names is the row's. -/
def Statement (i : Instr) : Prop := (opcodeRow i).Matches (encode i)

/-- Format G: OP, eight zeros, two free bytes. -/
theorem encodeG_row (op a b : BitVec 8) : encodeG op a b &&& 0xFFFF0000#32 = op ++ 0#24 := by
  apply BitVec.eq_of_getLsbD_eq
  intro i hi
  simp only [encodeG, BitVec.getLsbD_and, BitVec.getLsbD_append]
  interval_cases i <;> simp

/-- Format P: OP and 24 free bits. -/
theorem encodeP_row (op a : BitVec 8) (e : BitVec 16) : encodeP op a e &&& 0xFF000000#32 = op ++ 0#24 := by
  apply BitVec.eq_of_getLsbD_eq
  intro i hi
  simp only [encodeP, BitVec.getLsbD_and, BitVec.getLsbD_append]
  interval_cases i <;> simp

/-- Format U: OP, sixteen zeros, a free byte. -/
theorem encodeU_row (op a : BitVec 8) : encodeU op a &&& 0xFFFFFF00#32 = op ++ 0#24 := by
  apply BitVec.eq_of_getLsbD_eq
  intro i hi
  simp only [encodeU, BitVec.getLsbD_and, BitVec.getLsbD_append]
  interval_cases i <;> simp

/-- Format T: OP, eight zeros, a free byte, four zeros, a free nibble. -/
theorem encodeT_row (op ver : BitVec 8) (lvl : BitVec 4) : encodeT op ver lvl &&& 0xFFFF00F0#32 = op ++ 0#24 := by
  apply BitVec.eq_of_getLsbD_eq
  intro i hi
  simp only [encodeT, BitVec.getLsbD_and, BitVec.getLsbD_append]
  interval_cases i <;> simp

/-- Format K: OP, 21 zeros, three free bits. -/
theorem encodeK_row (op : BitVec 8) (k : BitVec 3) : encodeK op k &&& 0xFFFFFFF8#32 = op ++ 0#24 := by
  apply BitVec.eq_of_getLsbD_eq
  intro i hi
  simp only [encodeK, BitVec.getLsbD_and, BitVec.getLsbD_append]
  interval_cases i <;> simp

theorem nop : Statement .nop := rfl
theorem gfAdd (a b : BitVec 8) : Statement (.gfAdd a b) := encodeG_row _ a b
theorem gfSub (a b : BitVec 8) : Statement (.gfSub a b) := encodeG_row _ a b
theorem gfMul (a b : BitVec 8) : Statement (.gfMul a b) := encodeG_row _ a b
theorem gfDiv (a b : BitVec 8) : Statement (.gfDiv a b) := encodeG_row _ a b
theorem gfPow (a : BitVec 8) (e : BitVec 16) : Statement (.gfPow a e) := encodeP_row _ a e
theorem gfExp (a : BitVec 8) : Statement (.gfExp a) := encodeU_row _ a
theorem gfLog (a : BitVec 8) : Statement (.gfLog a) := encodeU_row _ a
theorem polyMul : Statement .polyMul := rfl
theorem polyMod : Statement .polyMod := rfl
theorem rsGen (n : BitVec 8) : Statement (.rsGen n) := encodeU_row _ n
theorem rsEcc (n : BitVec 8) : Statement (.rsEcc n) := encodeU_row _ n
theorem tplLoad (ver : BitVec 8) (lvl : BitVec 4) : Statement (.tplLoad ver lvl) := encodeT_row _ ver lvl
theorem place : Statement .place := rfl
theorem maskScore (k : BitVec 3) : Statement (.maskScore k) := encodeK_row _ k
theorem maskOpt : Statement .maskOpt := rfl
theorem maskForce (k : BitVec 3) : Statement (.maskForce k) := encodeK_row _ k

end Sys2Proof.Laws.OpcodeRow
end

