-- ==== Sys2Proof/Laws/State.lean ====
section
/-! SUPPORT. What each named update of the state does to each field: one lemma per field per update, so that no proof unfolds one. -/

namespace Sys2Proof.Machine

/-! ## State.acceptWith -/

@[simp] theorem State.acceptWith_ie (s : State) (d : Nat) (w : Word) : (s.acceptWith d w).ie = s.ie := rfl
@[simp] theorem State.acceptWith_done (s : State) (d : Nat) (w : Word) : (s.acceptWith d w).done = false := rfl
@[simp] theorem State.acceptWith_err (s : State) (d : Nat) (w : Word) : (s.acceptWith d w).err = false := rfl
@[simp] theorem State.acceptWith_ovf (s : State) (d : Nat) (w : Word) : (s.acceptWith d w).ovf = s.ovf := rfl
@[simp] theorem State.acceptWith_cmd (s : State) (d : Nat) (w : Word) : (s.acceptWith d w).cmd = w := rfl
@[simp] theorem State.acceptWith_arg0 (s : State) (d : Nat) (w : Word) : (s.acceptWith d w).arg0 = s.arg0 := rfl
@[simp] theorem State.acceptWith_arg1 (s : State) (d : Nat) (w : Word) : (s.acceptWith d w).arg1 = s.arg1 := rfl
@[simp] theorem State.acceptWith_arg2 (s : State) (d : Nat) (w : Word) : (s.acceptWith d w).arg2 = s.arg2 := rfl
@[simp] theorem State.acceptWith_res0 (s : State) (d : Nat) (w : Word) : (s.acceptWith d w).res0 = s.res0 := rfl
@[simp] theorem State.acceptWith_res1 (s : State) (d : Nat) (w : Word) : (s.acceptWith d w).res1 = s.res1 := rfl
@[simp] theorem State.acceptWith_errCode (s : State) (d : Nat) (w : Word) : (s.acceptWith d w).errCode = 0 := rfl
@[simp] theorem State.acceptWith_errArgIdx (s : State) (d : Nat) (w : Word) : (s.acceptWith d w).errArgIdx = 0 := rfl
@[simp] theorem State.acceptWith_errInfo (s : State) (d : Nat) (w : Word) : (s.acceptWith d w).errInfo = 0 := rfl
@[simp] theorem State.acceptWith_version (s : State) (d : Nat) (w : Word) : (s.acceptWith d w).version = s.version := rfl
@[simp] theorem State.acceptWith_width (s : State) (d : Nat) (w : Word) : (s.acceptWith d w).width = s.width := rfl
@[simp] theorem State.acceptWith_level (s : State) (d : Nat) (w : Word) : (s.acceptWith d w).level = s.level := rfl
@[simp] theorem State.acceptWith_phase (s : State) (d : Nat) (w : Word) : (s.acceptWith d w).phase = s.phase := rfl
@[simp] theorem State.acceptWith_mask (s : State) (d : Nat) (w : Word) : (s.acceptWith d w).mask = s.mask := rfl
@[simp] theorem State.acceptWith_fmt (s : State) (d : Nat) (w : Word) : (s.acceptWith d w).fmt = s.fmt := rfl
@[simp] theorem State.acceptWith_capacity (s : State) (d : Nat) (w : Word) : (s.acceptWith d w).capacity = s.capacity := rfl
@[simp] theorem State.acceptWith_placed (s : State) (d : Nat) (w : Word) : (s.acceptWith d w).placed = s.placed := rfl
@[simp] theorem State.acceptWith_cmdCount (s : State) (d : Nat) (w : Word) : (s.acceptWith d w).cmdCount = s.cmdCount := rfl
@[simp] theorem State.acceptWith_scored (s : State) (d : Nat) (w : Word) : (s.acceptWith d w).scored = s.scored := rfl
@[simp] theorem State.acceptWith_score (s : State) (d : Nat) (w : Word) : (s.acceptWith d w).score = s.score := rfl
@[simp] theorem State.acceptWith_pen (s : State) (d : Nat) (w : Word) : (s.acceptWith d w).pen = s.pen := rfl
@[simp] theorem State.acceptWith_matrix (s : State) (d : Nat) (w : Word) : (s.acceptWith d w).matrix = s.matrix := rfl
@[simp] theorem State.acceptWith_inFlight (s : State) (d : Nat) (w : Word) : (s.acceptWith d w).inFlight = some ⟨w, s.arg0, s.arg1, s.arg2, d⟩ := rfl
@[simp] theorem State.acceptWith_dmem (s : State) (d : Nat) (w : Word) : (s.acceptWith d w).dmem = s.dmem := rfl
@[simp] theorem State.acceptWith_genCache (s : State) (d : Nat) (w : Word) : (s.acceptWith d w).genCache = s.genCache := rfl
@[simp] theorem State.acceptWith_tplCache (s : State) (d : Nat) (w : Word) : (s.acceptWith d w).tplCache = s.tplCache := rfl
@[simp] theorem State.acceptWith_hostQueue (s : State) (d : Nat) (w : Word) : (s.acceptWith d w).hostQueue = s.hostQueue := rfl
@[simp] theorem State.acceptWith_readData (s : State) (d : Nat) (w : Word) : (s.acceptWith d w).readData = s.readData := rfl
@[simp] theorem State.acceptWith_latencyIndex (s : State) (d : Nat) (w : Word) : (s.acceptWith d w).latencyIndex = s.latencyIndex := rfl

/-! ## State.accept -/

@[simp] theorem State.accept_ie (s : State) (w : Word) : (s.accept w).ie = s.ie := rfl
@[simp] theorem State.accept_done (s : State) (w : Word) : (s.accept w).done = false := rfl
@[simp] theorem State.accept_err (s : State) (w : Word) : (s.accept w).err = false := rfl
@[simp] theorem State.accept_ovf (s : State) (w : Word) : (s.accept w).ovf = s.ovf := rfl
@[simp] theorem State.accept_cmd (s : State) (w : Word) : (s.accept w).cmd = w := rfl
@[simp] theorem State.accept_arg0 (s : State) (w : Word) : (s.accept w).arg0 = s.arg0 := rfl
@[simp] theorem State.accept_arg1 (s : State) (w : Word) : (s.accept w).arg1 = s.arg1 := rfl
@[simp] theorem State.accept_arg2 (s : State) (w : Word) : (s.accept w).arg2 = s.arg2 := rfl
@[simp] theorem State.accept_res0 (s : State) (w : Word) : (s.accept w).res0 = s.res0 := rfl
@[simp] theorem State.accept_res1 (s : State) (w : Word) : (s.accept w).res1 = s.res1 := rfl
@[simp] theorem State.accept_errCode (s : State) (w : Word) : (s.accept w).errCode = 0 := rfl
@[simp] theorem State.accept_errArgIdx (s : State) (w : Word) : (s.accept w).errArgIdx = 0 := rfl
@[simp] theorem State.accept_errInfo (s : State) (w : Word) : (s.accept w).errInfo = 0 := rfl
@[simp] theorem State.accept_version (s : State) (w : Word) : (s.accept w).version = s.version := rfl
@[simp] theorem State.accept_width (s : State) (w : Word) : (s.accept w).width = s.width := rfl
@[simp] theorem State.accept_level (s : State) (w : Word) : (s.accept w).level = s.level := rfl
@[simp] theorem State.accept_phase (s : State) (w : Word) : (s.accept w).phase = s.phase := rfl
@[simp] theorem State.accept_mask (s : State) (w : Word) : (s.accept w).mask = s.mask := rfl
@[simp] theorem State.accept_fmt (s : State) (w : Word) : (s.accept w).fmt = s.fmt := rfl
@[simp] theorem State.accept_capacity (s : State) (w : Word) : (s.accept w).capacity = s.capacity := rfl
@[simp] theorem State.accept_placed (s : State) (w : Word) : (s.accept w).placed = s.placed := rfl
@[simp] theorem State.accept_cmdCount (s : State) (w : Word) : (s.accept w).cmdCount = s.cmdCount := rfl
@[simp] theorem State.accept_scored (s : State) (w : Word) : (s.accept w).scored = s.scored := rfl
@[simp] theorem State.accept_score (s : State) (w : Word) : (s.accept w).score = s.score := rfl
@[simp] theorem State.accept_pen (s : State) (w : Word) : (s.accept w).pen = s.pen := rfl
@[simp] theorem State.accept_matrix (s : State) (w : Word) : (s.accept w).matrix = s.matrix := rfl
@[simp] theorem State.accept_inFlight (s : State) (w : Word) : (s.accept w).inFlight = some ⟨w, s.arg0, s.arg1, s.arg2, Config.commandLatency s.latencyIndex⟩ := rfl
@[simp] theorem State.accept_dmem (s : State) (w : Word) : (s.accept w).dmem = s.dmem := rfl
@[simp] theorem State.accept_genCache (s : State) (w : Word) : (s.accept w).genCache = s.genCache := rfl
@[simp] theorem State.accept_tplCache (s : State) (w : Word) : (s.accept w).tplCache = s.tplCache := rfl
@[simp] theorem State.accept_hostQueue (s : State) (w : Word) : (s.accept w).hostQueue = s.hostQueue := rfl
@[simp] theorem State.accept_readData (s : State) (w : Word) : (s.accept w).readData = s.readData := rfl
@[simp] theorem State.accept_latencyIndex (s : State) (w : Word) : (s.accept w).latencyIndex = s.latencyIndex + 1 := rfl

/-! ## State.finish -/

@[simp] theorem State.finish_ie (s : State) : (s.finish).ie = s.ie := rfl
@[simp] theorem State.finish_done (s : State) : (s.finish).done = true := rfl
@[simp] theorem State.finish_err (s : State) : (s.finish).err = s.err := rfl
@[simp] theorem State.finish_ovf (s : State) : (s.finish).ovf = s.ovf := rfl
@[simp] theorem State.finish_cmd (s : State) : (s.finish).cmd = s.cmd := rfl
@[simp] theorem State.finish_arg0 (s : State) : (s.finish).arg0 = s.arg0 := rfl
@[simp] theorem State.finish_arg1 (s : State) : (s.finish).arg1 = s.arg1 := rfl
@[simp] theorem State.finish_arg2 (s : State) : (s.finish).arg2 = s.arg2 := rfl
@[simp] theorem State.finish_res0 (s : State) : (s.finish).res0 = s.res0 := rfl
@[simp] theorem State.finish_res1 (s : State) : (s.finish).res1 = s.res1 := rfl
@[simp] theorem State.finish_errCode (s : State) : (s.finish).errCode = s.errCode := rfl
@[simp] theorem State.finish_errArgIdx (s : State) : (s.finish).errArgIdx = s.errArgIdx := rfl
@[simp] theorem State.finish_errInfo (s : State) : (s.finish).errInfo = s.errInfo := rfl
@[simp] theorem State.finish_version (s : State) : (s.finish).version = s.version := rfl
@[simp] theorem State.finish_width (s : State) : (s.finish).width = s.width := rfl
@[simp] theorem State.finish_level (s : State) : (s.finish).level = s.level := rfl
@[simp] theorem State.finish_phase (s : State) : (s.finish).phase = s.phase := rfl
@[simp] theorem State.finish_mask (s : State) : (s.finish).mask = s.mask := rfl
@[simp] theorem State.finish_fmt (s : State) : (s.finish).fmt = s.fmt := rfl
@[simp] theorem State.finish_capacity (s : State) : (s.finish).capacity = s.capacity := rfl
@[simp] theorem State.finish_placed (s : State) : (s.finish).placed = s.placed := rfl
@[simp] theorem State.finish_cmdCount (s : State) : (s.finish).cmdCount = s.cmdCount + 1 := rfl
@[simp] theorem State.finish_scored (s : State) : (s.finish).scored = s.scored := rfl
@[simp] theorem State.finish_score (s : State) : (s.finish).score = s.score := rfl
@[simp] theorem State.finish_pen (s : State) : (s.finish).pen = s.pen := rfl
@[simp] theorem State.finish_matrix (s : State) : (s.finish).matrix = s.matrix := rfl
@[simp] theorem State.finish_inFlight (s : State) : (s.finish).inFlight = none := rfl
@[simp] theorem State.finish_dmem (s : State) : (s.finish).dmem = s.dmem := rfl
@[simp] theorem State.finish_genCache (s : State) : (s.finish).genCache = s.genCache := rfl
@[simp] theorem State.finish_tplCache (s : State) : (s.finish).tplCache = s.tplCache := rfl
@[simp] theorem State.finish_hostQueue (s : State) : (s.finish).hostQueue = s.hostQueue := rfl
@[simp] theorem State.finish_readData (s : State) : (s.finish).readData = s.readData := rfl
@[simp] theorem State.finish_latencyIndex (s : State) : (s.finish).latencyIndex = s.latencyIndex := rfl

/-! ## State.raise -/

@[simp] theorem State.raise_ie (s : State) (e : CommandError) : (s.raise e).ie = s.ie := rfl
@[simp] theorem State.raise_done (s : State) (e : CommandError) : (s.raise e).done = s.done := rfl
@[simp] theorem State.raise_err (s : State) (e : CommandError) : (s.raise e).err = true := rfl
@[simp] theorem State.raise_ovf (s : State) (e : CommandError) : (s.raise e).ovf = s.ovf := rfl
@[simp] theorem State.raise_cmd (s : State) (e : CommandError) : (s.raise e).cmd = s.cmd := rfl
@[simp] theorem State.raise_arg0 (s : State) (e : CommandError) : (s.raise e).arg0 = s.arg0 := rfl
@[simp] theorem State.raise_arg1 (s : State) (e : CommandError) : (s.raise e).arg1 = s.arg1 := rfl
@[simp] theorem State.raise_arg2 (s : State) (e : CommandError) : (s.raise e).arg2 = s.arg2 := rfl
@[simp] theorem State.raise_res0 (s : State) (e : CommandError) : (s.raise e).res0 = s.res0 := rfl
@[simp] theorem State.raise_res1 (s : State) (e : CommandError) : (s.raise e).res1 = s.res1 := rfl
@[simp] theorem State.raise_errCode (s : State) (e : CommandError) : (s.raise e).errCode = e.name.code := rfl
@[simp] theorem State.raise_errArgIdx (s : State) (e : CommandError) : (s.raise e).errArgIdx = e.argIdx := rfl
@[simp] theorem State.raise_errInfo (s : State) (e : CommandError) : (s.raise e).errInfo = e.info := rfl
@[simp] theorem State.raise_version (s : State) (e : CommandError) : (s.raise e).version = s.version := rfl
@[simp] theorem State.raise_width (s : State) (e : CommandError) : (s.raise e).width = s.width := rfl
@[simp] theorem State.raise_level (s : State) (e : CommandError) : (s.raise e).level = s.level := rfl
@[simp] theorem State.raise_phase (s : State) (e : CommandError) : (s.raise e).phase = s.phase := rfl
@[simp] theorem State.raise_mask (s : State) (e : CommandError) : (s.raise e).mask = s.mask := rfl
@[simp] theorem State.raise_fmt (s : State) (e : CommandError) : (s.raise e).fmt = s.fmt := rfl
@[simp] theorem State.raise_capacity (s : State) (e : CommandError) : (s.raise e).capacity = s.capacity := rfl
@[simp] theorem State.raise_placed (s : State) (e : CommandError) : (s.raise e).placed = s.placed := rfl
@[simp] theorem State.raise_cmdCount (s : State) (e : CommandError) : (s.raise e).cmdCount = s.cmdCount + 1 := rfl
@[simp] theorem State.raise_scored (s : State) (e : CommandError) : (s.raise e).scored = s.scored := rfl
@[simp] theorem State.raise_score (s : State) (e : CommandError) : (s.raise e).score = s.score := rfl
@[simp] theorem State.raise_pen (s : State) (e : CommandError) : (s.raise e).pen = s.pen := rfl
@[simp] theorem State.raise_matrix (s : State) (e : CommandError) : (s.raise e).matrix = s.matrix := rfl
@[simp] theorem State.raise_inFlight (s : State) (e : CommandError) : (s.raise e).inFlight = none := rfl
@[simp] theorem State.raise_dmem (s : State) (e : CommandError) : (s.raise e).dmem = s.dmem := rfl
@[simp] theorem State.raise_genCache (s : State) (e : CommandError) : (s.raise e).genCache = s.genCache := rfl
@[simp] theorem State.raise_tplCache (s : State) (e : CommandError) : (s.raise e).tplCache = s.tplCache := rfl
@[simp] theorem State.raise_hostQueue (s : State) (e : CommandError) : (s.raise e).hostQueue = s.hostQueue := rfl
@[simp] theorem State.raise_readData (s : State) (e : CommandError) : (s.raise e).readData = s.readData := rfl
@[simp] theorem State.raise_latencyIndex (s : State) (e : CommandError) : (s.raise e).latencyIndex = s.latencyIndex := rfl

/-! ## State.returnFromError -/

@[simp] theorem State.returnFromError_ie (s : State) : (s.returnFromError).ie = s.ie := rfl
@[simp] theorem State.returnFromError_done (s : State) : (s.returnFromError).done = s.done := rfl
@[simp] theorem State.returnFromError_err (s : State) : (s.returnFromError).err = false := rfl
@[simp] theorem State.returnFromError_ovf (s : State) : (s.returnFromError).ovf = s.ovf := rfl
@[simp] theorem State.returnFromError_cmd (s : State) : (s.returnFromError).cmd = s.cmd := rfl
@[simp] theorem State.returnFromError_arg0 (s : State) : (s.returnFromError).arg0 = s.arg0 := rfl
@[simp] theorem State.returnFromError_arg1 (s : State) : (s.returnFromError).arg1 = s.arg1 := rfl
@[simp] theorem State.returnFromError_arg2 (s : State) : (s.returnFromError).arg2 = s.arg2 := rfl
@[simp] theorem State.returnFromError_res0 (s : State) : (s.returnFromError).res0 = s.res0 := rfl
@[simp] theorem State.returnFromError_res1 (s : State) : (s.returnFromError).res1 = s.res1 := rfl
@[simp] theorem State.returnFromError_errCode (s : State) : (s.returnFromError).errCode = s.errCode := rfl
@[simp] theorem State.returnFromError_errArgIdx (s : State) : (s.returnFromError).errArgIdx = s.errArgIdx := rfl
@[simp] theorem State.returnFromError_errInfo (s : State) : (s.returnFromError).errInfo = s.errInfo := rfl
@[simp] theorem State.returnFromError_version (s : State) : (s.returnFromError).version = s.version := rfl
@[simp] theorem State.returnFromError_width (s : State) : (s.returnFromError).width = s.width := rfl
@[simp] theorem State.returnFromError_level (s : State) : (s.returnFromError).level = s.level := rfl
@[simp] theorem State.returnFromError_phase (s : State) : (s.returnFromError).phase = s.phase := rfl
@[simp] theorem State.returnFromError_mask (s : State) : (s.returnFromError).mask = s.mask := rfl
@[simp] theorem State.returnFromError_fmt (s : State) : (s.returnFromError).fmt = s.fmt := rfl
@[simp] theorem State.returnFromError_capacity (s : State) : (s.returnFromError).capacity = s.capacity := rfl
@[simp] theorem State.returnFromError_placed (s : State) : (s.returnFromError).placed = s.placed := rfl
@[simp] theorem State.returnFromError_cmdCount (s : State) : (s.returnFromError).cmdCount = s.cmdCount := rfl
@[simp] theorem State.returnFromError_scored (s : State) : (s.returnFromError).scored = s.scored := rfl
@[simp] theorem State.returnFromError_score (s : State) : (s.returnFromError).score = s.score := rfl
@[simp] theorem State.returnFromError_pen (s : State) : (s.returnFromError).pen = s.pen := rfl
@[simp] theorem State.returnFromError_matrix (s : State) : (s.returnFromError).matrix = s.matrix := rfl
@[simp] theorem State.returnFromError_inFlight (s : State) : (s.returnFromError).inFlight = s.inFlight := rfl
@[simp] theorem State.returnFromError_dmem (s : State) : (s.returnFromError).dmem = s.dmem := rfl
@[simp] theorem State.returnFromError_genCache (s : State) : (s.returnFromError).genCache = s.genCache := rfl
@[simp] theorem State.returnFromError_tplCache (s : State) : (s.returnFromError).tplCache = s.tplCache := rfl
@[simp] theorem State.returnFromError_hostQueue (s : State) : (s.returnFromError).hostQueue = s.hostQueue := rfl
@[simp] theorem State.returnFromError_readData (s : State) : (s.returnFromError).readData = s.readData := rfl
@[simp] theorem State.returnFromError_latencyIndex (s : State) : (s.returnFromError).latencyIndex = s.latencyIndex := rfl

/-! ## State.writeDest -/

@[simp] theorem State.writeDest_ie (s : State) (sp : Span) (bs : List Byte) : (s.writeDest sp bs).ie = s.ie := rfl
@[simp] theorem State.writeDest_done (s : State) (sp : Span) (bs : List Byte) : (s.writeDest sp bs).done = s.done := rfl
@[simp] theorem State.writeDest_err (s : State) (sp : Span) (bs : List Byte) : (s.writeDest sp bs).err = s.err := rfl
@[simp] theorem State.writeDest_ovf (s : State) (sp : Span) (bs : List Byte) : (s.writeDest sp bs).ovf = s.ovf := rfl
@[simp] theorem State.writeDest_cmd (s : State) (sp : Span) (bs : List Byte) : (s.writeDest sp bs).cmd = s.cmd := rfl
@[simp] theorem State.writeDest_arg0 (s : State) (sp : Span) (bs : List Byte) : (s.writeDest sp bs).arg0 = s.arg0 := rfl
@[simp] theorem State.writeDest_arg1 (s : State) (sp : Span) (bs : List Byte) : (s.writeDest sp bs).arg1 = s.arg1 := rfl
@[simp] theorem State.writeDest_arg2 (s : State) (sp : Span) (bs : List Byte) : (s.writeDest sp bs).arg2 = s.arg2 := rfl
@[simp] theorem State.writeDest_res0 (s : State) (sp : Span) (bs : List Byte) : (s.writeDest sp bs).res0 = s.res0 := rfl
@[simp] theorem State.writeDest_res1 (s : State) (sp : Span) (bs : List Byte) : (s.writeDest sp bs).res1 = s.res1 := rfl
@[simp] theorem State.writeDest_errCode (s : State) (sp : Span) (bs : List Byte) : (s.writeDest sp bs).errCode = s.errCode := rfl
@[simp] theorem State.writeDest_errArgIdx (s : State) (sp : Span) (bs : List Byte) : (s.writeDest sp bs).errArgIdx = s.errArgIdx := rfl
@[simp] theorem State.writeDest_errInfo (s : State) (sp : Span) (bs : List Byte) : (s.writeDest sp bs).errInfo = s.errInfo := rfl
@[simp] theorem State.writeDest_version (s : State) (sp : Span) (bs : List Byte) : (s.writeDest sp bs).version = s.version := rfl
@[simp] theorem State.writeDest_width (s : State) (sp : Span) (bs : List Byte) : (s.writeDest sp bs).width = s.width := rfl
@[simp] theorem State.writeDest_level (s : State) (sp : Span) (bs : List Byte) : (s.writeDest sp bs).level = s.level := rfl
@[simp] theorem State.writeDest_phase (s : State) (sp : Span) (bs : List Byte) : (s.writeDest sp bs).phase = s.phase := rfl
@[simp] theorem State.writeDest_mask (s : State) (sp : Span) (bs : List Byte) : (s.writeDest sp bs).mask = s.mask := rfl
@[simp] theorem State.writeDest_fmt (s : State) (sp : Span) (bs : List Byte) : (s.writeDest sp bs).fmt = s.fmt := rfl
@[simp] theorem State.writeDest_capacity (s : State) (sp : Span) (bs : List Byte) : (s.writeDest sp bs).capacity = s.capacity := rfl
@[simp] theorem State.writeDest_placed (s : State) (sp : Span) (bs : List Byte) : (s.writeDest sp bs).placed = s.placed := rfl
@[simp] theorem State.writeDest_cmdCount (s : State) (sp : Span) (bs : List Byte) : (s.writeDest sp bs).cmdCount = s.cmdCount := rfl
@[simp] theorem State.writeDest_scored (s : State) (sp : Span) (bs : List Byte) : (s.writeDest sp bs).scored = s.scored := rfl
@[simp] theorem State.writeDest_score (s : State) (sp : Span) (bs : List Byte) : (s.writeDest sp bs).score = s.score := rfl
@[simp] theorem State.writeDest_pen (s : State) (sp : Span) (bs : List Byte) : (s.writeDest sp bs).pen = s.pen := rfl
@[simp] theorem State.writeDest_matrix (s : State) (sp : Span) (bs : List Byte) : (s.writeDest sp bs).matrix = s.matrix := rfl
@[simp] theorem State.writeDest_inFlight (s : State) (sp : Span) (bs : List Byte) : (s.writeDest sp bs).inFlight = s.inFlight := rfl
@[simp] theorem State.writeDest_dmem (s : State) (sp : Span) (bs : List Byte) : (s.writeDest sp bs).dmem = s.dmem.writeBytes sp.addr bs := rfl
@[simp] theorem State.writeDest_genCache (s : State) (sp : Span) (bs : List Byte) : (s.writeDest sp bs).genCache = s.genCache := rfl
@[simp] theorem State.writeDest_tplCache (s : State) (sp : Span) (bs : List Byte) : (s.writeDest sp bs).tplCache = s.tplCache := rfl
@[simp] theorem State.writeDest_hostQueue (s : State) (sp : Span) (bs : List Byte) : (s.writeDest sp bs).hostQueue = s.hostQueue := rfl
@[simp] theorem State.writeDest_readData (s : State) (sp : Span) (bs : List Byte) : (s.writeDest sp bs).readData = s.readData := rfl
@[simp] theorem State.writeDest_latencyIndex (s : State) (sp : Span) (bs : List Byte) : (s.writeDest sp bs).latencyIndex = s.latencyIndex := rfl

/-! ## State.publishGenerator -/

@[simp] theorem State.publishGenerator_ie (s : State) (n : Nat) : (s.publishGenerator n).ie = s.ie := rfl
@[simp] theorem State.publishGenerator_done (s : State) (n : Nat) : (s.publishGenerator n).done = s.done := rfl
@[simp] theorem State.publishGenerator_err (s : State) (n : Nat) : (s.publishGenerator n).err = s.err := rfl
@[simp] theorem State.publishGenerator_ovf (s : State) (n : Nat) : (s.publishGenerator n).ovf = s.ovf := rfl
@[simp] theorem State.publishGenerator_cmd (s : State) (n : Nat) : (s.publishGenerator n).cmd = s.cmd := rfl
@[simp] theorem State.publishGenerator_arg0 (s : State) (n : Nat) : (s.publishGenerator n).arg0 = s.arg0 := rfl
@[simp] theorem State.publishGenerator_arg1 (s : State) (n : Nat) : (s.publishGenerator n).arg1 = s.arg1 := rfl
@[simp] theorem State.publishGenerator_arg2 (s : State) (n : Nat) : (s.publishGenerator n).arg2 = s.arg2 := rfl
@[simp] theorem State.publishGenerator_res0 (s : State) (n : Nat) : (s.publishGenerator n).res0 = s.res0 := rfl
@[simp] theorem State.publishGenerator_res1 (s : State) (n : Nat) : (s.publishGenerator n).res1 = s.res1 := rfl
@[simp] theorem State.publishGenerator_errCode (s : State) (n : Nat) : (s.publishGenerator n).errCode = s.errCode := rfl
@[simp] theorem State.publishGenerator_errArgIdx (s : State) (n : Nat) : (s.publishGenerator n).errArgIdx = s.errArgIdx := rfl
@[simp] theorem State.publishGenerator_errInfo (s : State) (n : Nat) : (s.publishGenerator n).errInfo = s.errInfo := rfl
@[simp] theorem State.publishGenerator_version (s : State) (n : Nat) : (s.publishGenerator n).version = s.version := rfl
@[simp] theorem State.publishGenerator_width (s : State) (n : Nat) : (s.publishGenerator n).width = s.width := rfl
@[simp] theorem State.publishGenerator_level (s : State) (n : Nat) : (s.publishGenerator n).level = s.level := rfl
@[simp] theorem State.publishGenerator_phase (s : State) (n : Nat) : (s.publishGenerator n).phase = s.phase := rfl
@[simp] theorem State.publishGenerator_mask (s : State) (n : Nat) : (s.publishGenerator n).mask = s.mask := rfl
@[simp] theorem State.publishGenerator_fmt (s : State) (n : Nat) : (s.publishGenerator n).fmt = s.fmt := rfl
@[simp] theorem State.publishGenerator_capacity (s : State) (n : Nat) : (s.publishGenerator n).capacity = s.capacity := rfl
@[simp] theorem State.publishGenerator_placed (s : State) (n : Nat) : (s.publishGenerator n).placed = s.placed := rfl
@[simp] theorem State.publishGenerator_cmdCount (s : State) (n : Nat) : (s.publishGenerator n).cmdCount = s.cmdCount := rfl
@[simp] theorem State.publishGenerator_scored (s : State) (n : Nat) : (s.publishGenerator n).scored = s.scored := rfl
@[simp] theorem State.publishGenerator_score (s : State) (n : Nat) : (s.publishGenerator n).score = s.score := rfl
@[simp] theorem State.publishGenerator_pen (s : State) (n : Nat) : (s.publishGenerator n).pen = s.pen := rfl
@[simp] theorem State.publishGenerator_matrix (s : State) (n : Nat) : (s.publishGenerator n).matrix = s.matrix := rfl
@[simp] theorem State.publishGenerator_inFlight (s : State) (n : Nat) : (s.publishGenerator n).inFlight = s.inFlight := rfl
@[simp] theorem State.publishGenerator_dmem (s : State) (n : Nat) : (s.publishGenerator n).dmem = s.dmem := rfl
@[simp] theorem State.publishGenerator_genCache (s : State) (n : Nat) : (s.publishGenerator n).genCache = cachePublish s.genCache n (s.generator n) := rfl
@[simp] theorem State.publishGenerator_tplCache (s : State) (n : Nat) : (s.publishGenerator n).tplCache = s.tplCache := rfl
@[simp] theorem State.publishGenerator_hostQueue (s : State) (n : Nat) : (s.publishGenerator n).hostQueue = s.hostQueue := rfl
@[simp] theorem State.publishGenerator_readData (s : State) (n : Nat) : (s.publishGenerator n).readData = s.readData := rfl
@[simp] theorem State.publishGenerator_latencyIndex (s : State) (n : Nat) : (s.publishGenerator n).latencyIndex = s.latencyIndex := rfl

/-! ## State.applyMask -/

@[simp] theorem State.applyMask_ie (s : State) (k : BitVec 3) : (s.applyMask k).ie = s.ie := rfl
@[simp] theorem State.applyMask_done (s : State) (k : BitVec 3) : (s.applyMask k).done = s.done := rfl
@[simp] theorem State.applyMask_err (s : State) (k : BitVec 3) : (s.applyMask k).err = s.err := rfl
@[simp] theorem State.applyMask_ovf (s : State) (k : BitVec 3) : (s.applyMask k).ovf = s.ovf := rfl
@[simp] theorem State.applyMask_cmd (s : State) (k : BitVec 3) : (s.applyMask k).cmd = s.cmd := rfl
@[simp] theorem State.applyMask_arg0 (s : State) (k : BitVec 3) : (s.applyMask k).arg0 = s.arg0 := rfl
@[simp] theorem State.applyMask_arg1 (s : State) (k : BitVec 3) : (s.applyMask k).arg1 = s.arg1 := rfl
@[simp] theorem State.applyMask_arg2 (s : State) (k : BitVec 3) : (s.applyMask k).arg2 = s.arg2 := rfl
@[simp] theorem State.applyMask_res0 (s : State) (k : BitVec 3) : (s.applyMask k).res0 = s.res0 := rfl
@[simp] theorem State.applyMask_res1 (s : State) (k : BitVec 3) : (s.applyMask k).res1 = s.res1 := rfl
@[simp] theorem State.applyMask_errCode (s : State) (k : BitVec 3) : (s.applyMask k).errCode = s.errCode := rfl
@[simp] theorem State.applyMask_errArgIdx (s : State) (k : BitVec 3) : (s.applyMask k).errArgIdx = s.errArgIdx := rfl
@[simp] theorem State.applyMask_errInfo (s : State) (k : BitVec 3) : (s.applyMask k).errInfo = s.errInfo := rfl
@[simp] theorem State.applyMask_version (s : State) (k : BitVec 3) : (s.applyMask k).version = s.version := rfl
@[simp] theorem State.applyMask_width (s : State) (k : BitVec 3) : (s.applyMask k).width = s.width := rfl
@[simp] theorem State.applyMask_level (s : State) (k : BitVec 3) : (s.applyMask k).level = s.level := rfl
@[simp] theorem State.applyMask_phase (s : State) (k : BitVec 3) : (s.applyMask k).phase = .final := rfl
@[simp] theorem State.applyMask_mask (s : State) (k : BitVec 3) : (s.applyMask k).mask = k.setWidth 4 := rfl
@[simp] theorem State.applyMask_fmt (s : State) (k : BitVec 3) : (s.applyMask k).fmt = formatWord (levelIndicator s.level) k := rfl
@[simp] theorem State.applyMask_capacity (s : State) (k : BitVec 3) : (s.applyMask k).capacity = s.capacity := rfl
@[simp] theorem State.applyMask_placed (s : State) (k : BitVec 3) : (s.applyMask k).placed = s.placed := rfl
@[simp] theorem State.applyMask_cmdCount (s : State) (k : BitVec 3) : (s.applyMask k).cmdCount = s.cmdCount := rfl
@[simp] theorem State.applyMask_scored (s : State) (k : BitVec 3) : (s.applyMask k).scored = s.scored := rfl
@[simp] theorem State.applyMask_score (s : State) (k : BitVec 3) : (s.applyMask k).score = s.score := rfl
@[simp] theorem State.applyMask_pen (s : State) (k : BitVec 3) : (s.applyMask k).pen = s.pen := rfl
@[simp] theorem State.applyMask_matrix (s : State) (k : BitVec 3) : (s.applyMask k).matrix = writeFormat s.width.toNat (formatWord (levelIndicator s.level) k) (candidate k s.matrix) := rfl
@[simp] theorem State.applyMask_inFlight (s : State) (k : BitVec 3) : (s.applyMask k).inFlight = s.inFlight := rfl
@[simp] theorem State.applyMask_dmem (s : State) (k : BitVec 3) : (s.applyMask k).dmem = s.dmem := rfl
@[simp] theorem State.applyMask_genCache (s : State) (k : BitVec 3) : (s.applyMask k).genCache = s.genCache := rfl
@[simp] theorem State.applyMask_tplCache (s : State) (k : BitVec 3) : (s.applyMask k).tplCache = s.tplCache := rfl
@[simp] theorem State.applyMask_hostQueue (s : State) (k : BitVec 3) : (s.applyMask k).hostQueue = s.hostQueue := rfl
@[simp] theorem State.applyMask_readData (s : State) (k : BitVec 3) : (s.applyMask k).readData = s.readData := rfl
@[simp] theorem State.applyMask_latencyIndex (s : State) (k : BitVec 3) : (s.applyMask k).latencyIndex = s.latencyIndex := rfl

/-! ## State.resetBlock -/

@[simp] theorem State.resetBlock_ie (s : State) : s.resetBlock.ie = State.reset.ie := rfl
@[simp] theorem State.resetBlock_done (s : State) : s.resetBlock.done = State.reset.done := rfl
@[simp] theorem State.resetBlock_err (s : State) : s.resetBlock.err = State.reset.err := rfl
@[simp] theorem State.resetBlock_ovf (s : State) : s.resetBlock.ovf = State.reset.ovf := rfl
@[simp] theorem State.resetBlock_cmd (s : State) : s.resetBlock.cmd = State.reset.cmd := rfl
@[simp] theorem State.resetBlock_arg0 (s : State) : s.resetBlock.arg0 = State.reset.arg0 := rfl
@[simp] theorem State.resetBlock_arg1 (s : State) : s.resetBlock.arg1 = State.reset.arg1 := rfl
@[simp] theorem State.resetBlock_arg2 (s : State) : s.resetBlock.arg2 = State.reset.arg2 := rfl
@[simp] theorem State.resetBlock_res0 (s : State) : s.resetBlock.res0 = State.reset.res0 := rfl
@[simp] theorem State.resetBlock_res1 (s : State) : s.resetBlock.res1 = State.reset.res1 := rfl
@[simp] theorem State.resetBlock_errCode (s : State) : s.resetBlock.errCode = State.reset.errCode := rfl
@[simp] theorem State.resetBlock_errArgIdx (s : State) : s.resetBlock.errArgIdx = State.reset.errArgIdx := rfl
@[simp] theorem State.resetBlock_errInfo (s : State) : s.resetBlock.errInfo = State.reset.errInfo := rfl
@[simp] theorem State.resetBlock_version (s : State) : s.resetBlock.version = State.reset.version := rfl
@[simp] theorem State.resetBlock_width (s : State) : s.resetBlock.width = State.reset.width := rfl
@[simp] theorem State.resetBlock_level (s : State) : s.resetBlock.level = State.reset.level := rfl
@[simp] theorem State.resetBlock_phase (s : State) : s.resetBlock.phase = State.reset.phase := rfl
@[simp] theorem State.resetBlock_mask (s : State) : s.resetBlock.mask = State.reset.mask := rfl
@[simp] theorem State.resetBlock_fmt (s : State) : s.resetBlock.fmt = State.reset.fmt := rfl
@[simp] theorem State.resetBlock_capacity (s : State) : s.resetBlock.capacity = State.reset.capacity := rfl
@[simp] theorem State.resetBlock_placed (s : State) : s.resetBlock.placed = State.reset.placed := rfl
@[simp] theorem State.resetBlock_cmdCount (s : State) : s.resetBlock.cmdCount = State.reset.cmdCount := rfl
@[simp] theorem State.resetBlock_scored (s : State) : s.resetBlock.scored = State.reset.scored := rfl
@[simp] theorem State.resetBlock_score (s : State) : s.resetBlock.score = State.reset.score := rfl
@[simp] theorem State.resetBlock_pen (s : State) : s.resetBlock.pen = State.reset.pen := rfl
@[simp] theorem State.resetBlock_matrix (s : State) : s.resetBlock.matrix = State.reset.matrix := rfl
@[simp] theorem State.resetBlock_inFlight (s : State) : s.resetBlock.inFlight = State.reset.inFlight := rfl
@[simp] theorem State.resetBlock_dmem (s : State) : s.resetBlock.dmem = s.dmem := rfl
@[simp] theorem State.resetBlock_genCache (s : State) : s.resetBlock.genCache = State.reset.genCache := rfl
@[simp] theorem State.resetBlock_tplCache (s : State) : s.resetBlock.tplCache = State.reset.tplCache := rfl
@[simp] theorem State.resetBlock_hostQueue (s : State) : s.resetBlock.hostQueue = s.hostQueue := rfl
@[simp] theorem State.resetBlock_readData (s : State) : s.resetBlock.readData = s.readData := rfl
@[simp] theorem State.resetBlock_latencyIndex (s : State) : s.resetBlock.latencyIndex = s.latencyIndex := rfl

end Sys2Proof.Machine
end

