-- ==== Sys2Proof/Tests/Slice0.lean ====
section
/-! SUPPORT. Small tests: the ill-formed commands refused, words written out from the encoding, single steps on the values of
95_test_vectors.md, and for every obligation with hypotheses a witness that meets them. -/

namespace Sys2Proof.Tests

open Sys2Proof Sys2Proof.Machine

/-! ## WellFormed smoke tests (R91) -/

theorem test_wf_refuses_gfExp_255 : ¬ WellFormed (.gfExp 255) := by decide
theorem test_wf_refuses_rsGen_degrees : ¬ WellFormed (.rsGen 0) ∧ ¬ WellFormed (.rsGen 31) := by decide
theorem test_wf_refuses_rsEcc_degrees : ¬ WellFormed (.rsEcc 0) ∧ ¬ WellFormed (.rsEcc 31) := by decide
theorem test_wf_refuses_tplLoad_versions : ¬ WellFormed (.tplLoad 0 0) ∧ ¬ WellFormed (.tplLoad 41 0) := by decide
theorem test_wf_refuses_tplLoad_level : ¬ WellFormed (.tplLoad 7 4) := by decide
theorem test_wf_accepts_bounds : WellFormed (.gfExp 254) ∧ WellFormed (.rsGen 1) ∧ WellFormed (.rsEcc 30) ∧
    WellFormed (.tplLoad 1 0) ∧ WellFormed (.tplLoad 40 3) := by decide

/-! ## Decoding: words written out bit by bit from R81, R82 and R87 -/

/-- The instruction a word decodes to, `none` when it is illegal. -/
def decoded (w : Word) : Option Instr :=
  match decode w with
  | .ok i => some i
  | .error _ => none

/-- Format N: OP, then 24 zeros. -/
theorem test_decode_N :
    decoded 0b00000000_000000000000000000000000#32 = some .nop ∧
    decoded 0b00010000_000000000000000000000000#32 = some .polyMul ∧
    decoded 0b00010001_000000000000000000000000#32 = some .polyMod ∧
    decoded 0b01000000_000000000000000000000000#32 = some .place ∧
    decoded 0b01010001_000000000000000000000000#32 = some .maskOpt := by decide

/-- Format G: OP, eight zeros, A, B. -/
theorem test_decode_G :
    decoded 0b00000001_00000000_01010011_11001010#32 = some (.gfAdd 0x53 0xCA) ∧
    decoded 0b00000010_00000000_01010011_11001010#32 = some (.gfSub 0x53 0xCA) ∧
    decoded 0b00000011_00000000_01010011_11001010#32 = some (.gfMul 0x53 0xCA) ∧
    decoded 0b00000100_00000000_01010011_11001010#32 = some (.gfDiv 0x53 0xCA) := by decide

/-- Format P: OP, A, E. -/
theorem test_decode_P : decoded 0b00000101_00000011_00000001_00101100#32 = some (.gfPow 3 300) := by decide

/-- Format U: OP, sixteen zeros, A or N. -/
theorem test_decode_U :
    decoded 0b00000110_0000000000000000_11111110#32 = some (.gfExp 254) ∧
    decoded 0b00000111_0000000000000000_01010011#32 = some (.gfLog 0x53) ∧
    decoded 0b00100000_0000000000000000_00011110#32 = some (.rsGen 30) ∧
    decoded 0b00100001_0000000000000000_00001010#32 = some (.rsEcc 10) := by decide

/-- Format T: OP, eight zeros, VER, four zeros, LVL. -/
theorem test_decode_T : decoded 0b00110000_00000000_00000111_0000_0010#32 = some (.tplLoad 7 2) := by decide

/-- Format K: OP, 21 zeros, K. -/
theorem test_decode_K :
    decoded 0b01010000_000000000000000000000_010#32 = some (.maskScore 2) ∧
    decoded 0b01010010_000000000000000000000_101#32 = some (.maskForce 5) := by decide

/-- V-GF-2, V-GF-4, V-RS-4, V-TPL-5, V-MK-4, V-ERR-1 and an opcode not in the table: illegal. -/
theorem test_decode_illegal :
    ([0x04010000#32, 0x06000101#32, 0x21000104#32, 0x30000110#32, 0x50000008#32, 0x51000001#32, 0x40000001#32,
      0x08000000#32, 0x53000000#32, 0xFF000000#32].all fun w => (decoded w).isNone) = true := by decide

theorem test_decodeTableWord : decodeTableWord 32 0x0503012C = some (.gfPow 3 300) ∧
    decodeTableWord 32 0x04010000 = none := by decide

/-! ## Single steps -/

/-- A condition of the state a result goes on to. -/
def nextAnd (r : Result) (p : State → Bool) : Bool :=
  match r with
  | .next t => p t
  | .fault _ => false
  | .refused _ => false

theorem exists_of_nextAnd {r : Result} {p : State → Bool} (h : nextAnd r p = true) : ∃ t, r = .next t ∧ p t = true := by
  cases r with
  | next t => exact ⟨t, rfl, h⟩
  | fault _ => cases h
  | refused _ => cases h

/-- A source descriptor (R65). -/
def desc (addr len : Nat) : Word := word (65536 * len + addr)

/-- The reset machine with bytes in DMEM and a command about to complete. -/
def ready (w : Word) (a0 a1 a2 : Word) (mem : Memory) : State :=
  { State.reset with cmd := w, arg0 := a0, arg1 := a1, arg2 := a2, inFlight := some ⟨w, a0, a1, a2, 0⟩, dmem := mem }

/-- Bytes at an address of an unwritten DMEM. -/
def bytesAt (a : Nat) (bs : List Byte) : Memory := Memory.writeBytes [] a bs

/-- The word completes without an error, with this RES0. -/
def gives (w : Word) (res : Word) : Bool :=
  nextAnd (step (ready w 0 0 0 [])) fun t => t.done && !t.err && !t.busy && t.res0 == res && t.cmdCount == 1

/-- The word completes with this ERRCODE (ARGIDX and CODE) and ERRINFO, and RES0 stays. -/
def raises (s : State) (code info : Word) : Bool :=
  nextAnd (step s) fun t =>
    t.err && !t.done && !t.busy && t.errcodeWord == code && t.errInfo == info && t.res0 == s.res0 && t.cmdCount == 1

theorem test_nop_keeps_res0 : gives 0x00000000 0 = true := by decide
/-- V-GF-1. -/
theorem test_gf_add_sub : (gives 0x010053CA 0x99 && gives 0x020053CA 0x99) = true := by decide
/-- V-GF-1. -/
theorem test_gf_mul : (gives 0x030053CA 0x8F && gives 0x0300FFFF 0xE2 && gives 0x03000053 0) = true := by decide
/-- V-GF-1, V-GF-2. -/
theorem test_gf_div : (gives 0x040053CA 0x6D && gives 0x04000307 0xD3 && gives 0x04000053 0) = true := by decide
theorem test_gf_div_zero : raises (ready 0x04001200 0 0 0 []) 0x009 0x04001200 = true := by decide
/-- V-GF-3. -/
theorem test_gf_pow : (gives 0x0503012C 0x1A && gives 0x0505FFFF 0x01 && gives 0x05000001 0) = true := by decide
theorem test_gf_pow_zero_zero : raises (ready 0x05000000 0 0 0 []) 0x009 0x05000000 = true := by decide
/-- V-GF-4. -/
theorem test_gf_exp : (gives 0x060000FE 0x8E && gives 0x06000019 0x03 &&
    raises (ready 0x060000FF 0 0 0 []) 0x006 0xFF) = true := by decide
theorem test_gf_log : (gives 0x07000053 206 && gives 0x070000FF 175 &&
    raises (ready 0x07000000 0 0 0 []) 0x00A 0) = true := by decide
/-- An illegal word, V-GF-2. -/
theorem test_illegal_word : raises (ready 0x04010000 0 0 0 []) 0x001 0x04010000 = true := by decide

/-- The completed state holds these bytes at `a`, and RES0 is their number. -/
def stores (s : State) (a : Nat) (bs : List Byte) : Bool :=
  nextAnd (step s) fun t => t.done && t.dmem.readBytes a bs.length == some bs && t.res0 == word bs.length && t.dmem.wf

/-- V-POLY-1, with the result over both sources. -/
theorem test_poly_mul :
    stores (ready 0x10000000 (desc 0 3) (desc 3 4) 1 (bytesAt 0 [1, 2, 3, 4, 5, 6, 7])) 1 [4, 0x0D, 0, 4, 4, 9] = true := by
  decide
/-- V-POLY-1 and V-ERR-1: E_LENGTH of ARG0 comes before E_RANGE of ARG1. -/
theorem test_poly_mul_length : raises (ready 0x10000000 (desc 0 0) (desc 0xFFF 9) 0 []) 0x007 0 = true := by decide
/-- V-POLY-2. -/
theorem test_poly_mod :
    (stores (ready 0x11000000 (desc 0 5) (desc 5 3) 0x20 (bytesAt 0 [1, 2, 3, 4, 5, 1, 3, 2])) 0x20 [0, 1] &&
     stores (ready 0x11000000 (desc 0 1) (desc 1 3) 0x20 (bytesAt 0 [7, 1, 3, 2])) 0x20 [0, 7]) = true := by decide
/-- V-POLY-2. -/
theorem test_poly_mod_errors :
    (raises (ready 0x11000000 (desc 0 0) (desc 0 4) 0 (bytesAt 0 [0x0F, 0x36, 0x78, 0x40])) 0x00B 0x0F &&
     raises (ready 0x11000000 0 (desc 0xFFC 5) 0 []) 0x108 0x00050FFC) = true := by decide
/-- V-RS-1. -/
theorem test_rs_gen : stores (ready 0x20000004 0 0 0xFFB []) 0xFFB [0x01, 0x0F, 0x36, 0x78, 0x40] = true := by decide
/-- V-RS-2. -/
theorem test_rs_gen_errors :
    (raises (ready 0x2000001F 0 0 0 []) 0x005 0x1F && raises (ready 0x2000001E 0 0 0x0FE2 []) 0x208 0xFE2) = true := by decide
/-- V-RS-4: the codeword in place. -/
theorem test_rs_ecc :
    stores (ready 0x21000004 (desc 0x100 2) 0 0x102 (bytesAt 0x100 [0x12, 0x34])) 0x102 [0x89, 0xA6, 0x8D, 0x84] = true := by
  decide +kernel
/-- V-RS-4: an empty source at DMEM_SIZE is in range; one byte there is not. -/
theorem test_rs_ecc_ranges :
    (stores (ready 0x21000003 (desc 0x1000 0) 0 0 []) 0 [0, 0, 0] &&
     raises (ready 0x21000003 (desc 0x1000 1) 0 0 []) 0x008 0x00011000) = true := by decide

/-- The version-1 template loaded at level M (V-TPL-1). -/
def loaded : State :=
  { State.reset with
    matrix := template 1, version := 1, width := 21, level := 1, phase := .template, capacity := 208 }

/-- `loaded` with no codewords placed. -/
def placedEmpty : State := { loaded with phase := .placed }

/-- A state with a command about to complete. -/
def State.issuing (s : State) (w a0 : Word) (mem : Memory) : State :=
  { s with cmd := w, arg0 := a0, arg1 := 0, arg2 := 0, inFlight := some ⟨w, a0, 0, 0, 0⟩, dmem := mem }

/-- V-TPL-1: 208 data modules, the dark module and a finder's ring. -/
theorem test_tpl_load :
    nextAnd (step (ready 0x30000101 0 0 0 [])) (fun t =>
      t.res0 == 21 && t.res1 == 208 && t.phase == .template && t.mask == 0xF && t.level == 1 &&
      t.matrix.cell 13 8 == ⟨true, true⟩ && t.matrix.cell 1 1 == ⟨false, true⟩ && t.matrix.cell 20 20 == ⟨false, false⟩)
      = true := by decide +kernel
/-- V-TPL-4: version bits of VI(7) in the top-right block and its transpose, an alignment corner. -/
theorem test_template_7 :
    ([(0, 36), (1, 35), (5, 36), (36, 0), (34, 4), (20, 20)].map fun rc => (templateCell true 7 rc.1 rc.2).dark) =
      [true, true, false, true, true, true] := by decide
/-- V-TPL-5. -/
theorem test_tpl_load_errors :
    (raises (ready 0x30002904 0 0 0 []) 0x003 0x29 && raises (ready 0x30000704 0 0 0 []) 0x004 4) = true := by decide
/-- V-PL-1, V-PL-3: the first eight modules hold 0xA5 from bit 7 down. -/
theorem test_place :
    nextAnd (step (State.issuing loaded 0x40000000 (desc 0 1) (bytesAt 0 [0xA5]))) (fun t =>
      t.res0 == 8 && t.res1 == 200 && t.phase == .placed &&
      ([(20, 20), (20, 19), (19, 20), (19, 19), (18, 20), (18, 19), (17, 20), (17, 19)].map fun rc =>
        (t.matrix.cell rc.1 rc.2).dark) == [true, false, true, false, false, true, false, true]) = true := by decide +kernel
/-- V-PL-2. -/
theorem test_place_errors :
    (raises (ready 0x40000000 0 0 0 []) 0x002 0 && raises (State.issuing loaded 0x40000000 (desc 0 27) []) 0x00C 216) = true := by
  decide
/-- V-MK-1, row 3 of each predicate. -/
theorem test_mask_predicates :
    ((List.range 8).map fun k => (List.range 6).map fun c => maskPredicate (BitVec.ofNat 3 k) 3 c) =
      [[false, true, false, true, false, true], [false, false, false, false, false, false],
       [true, false, false, true, false, false], [true, false, false, true, false, false],
       [false, false, false, true, true, true], [true, false, true, false, true, false],
       [true, false, true, false, true, false], [false, true, false, true, false, true]] := by decide
/-- V-MK-2: the all-dark and the checkerboard matrix. -/
theorem test_penalties :
    ([fun _ _ => true, fun r c => (r + c) % 2 == 0].map fun (f : Nat → Nat → Bool) =>
      penaltyOf 21 (Matrix.tabulate 21 fun r c => ⟨f r c, false⟩)) = [⟨798, 1200, 0, 100⟩, ⟨0, 0, 0, 0⟩] := by
  decide +kernel
/-- V-MK-3: M mask 7 = 0x4AA0 and L mask 0 = 0x77C4. -/
theorem test_format_words : formatWord (levelIndicator 1) 7 = 0x4AA0 ∧ formatWord (levelIndicator 0) 0 = 0x77C4 := by decide
/-- MASK.SCORE changes its own mask's registers only; PHASE stays. -/
theorem test_mask_score :
    nextAnd (step (State.issuing placedEmpty 0x50000002 0 [])) (fun t =>
      t.scored == 4 && t.phase == .placed && t.res0 == perMask t.score 2 && perMask t.score 1 == 0) = true := by decide +kernel
/-- V-MK-4: E_SEQUENCE. -/
theorem test_mask_sequence :
    (raises (State.issuing loaded 0x50000000 0 []) 0x002 1 && raises (ready 0x52000003 0 0 0 []) 0x002 0 &&
     raises (State.issuing loaded 0x51000000 0 []) 0x002 1) = true := by decide
/-- R219: the lowest score wins, the smallest mask on a tie. -/
theorem test_mask_opt_choice : bestMask #v[9, 7, 5, 7, 5, 8, 6, 5] = 2 := by decide
/-- V-MK-3: the cells of M mask 7 and the dark module. -/
theorem test_mask_force :
    nextAnd (step (State.issuing placedEmpty 0x52000007 0 [])) (fun t =>
      t.res0 == 7 && t.res1 == 0x4AA0 && t.phase == .final && t.mask == 7 &&
      (t.matrix.cell 5 8).dark && (t.matrix.cell 8 8).dark && (t.matrix.cell 8 5).dark && !(t.matrix.cell 8 7).dark &&
      (t.matrix.cell 8 15).dark && (t.matrix.cell 20 8).dark && (t.matrix.cell 13 8).dark) = true := by decide +kernel

/-! ## The host's side -/

/-- The reset machine with one host access to make. -/
def hosting (a : HostAccess) : State := { State.reset with hostQueue := [a] }

theorem test_read_id : nextAnd (step (hosting (.read 0 4))) (fun t => t.readData == some 0x51524331) = true := by decide
theorem test_cmd_write_accepts :
    nextAnd (step (hosting (.write 0x00C 4 0x010053CA))) (fun t => t.busy && t.cmd == 0x010053CA && t.cmdCount == 0) = true := by
  decide
theorem test_dmem_little_endian :
    nextAnd (step (hosting (.write 0x1000 4 0x11223344))) (fun t =>
      t.dmem.readBytes 0 4 == some [0x44, 0x33, 0x22, 0x11]) = true := by decide
/-- R64, I5: a write that reaches the window is ignored, a read that does is refused. -/
theorem test_access_into_window :
    nextAnd (step (hosting (.write 0xFFFD 4 0xFFFFFFFF))) (fun t => t.dmem == [] && t.matrix == []) = true ∧
    step (hosting (.read 0xFFFD 4)) = .refused .windowAccessForm := ⟨by decide, rfl⟩
theorem test_irq :
    nextAnd (step { (ready 0 0 0 0 []) with ie := true }) (fun t => t.irq) = true := by decide
theorem test_reset_memory_wf : State.reset.dmem.wf = true := by decide

theorem test_withFetchWord_runs_it :
    nextAnd (step (State.reset.withFetchWord 32 0x030053CA)) (fun t => t.res0 == 0x8F) = true := by decide

/-! ## Witnesses: for each obligation with hypotheses, states and operands that meet them all together -/

/-- The host's access `a` comes next, while a command waits one more step. -/
def waiting (w : Word) (a : HostAccess) : State :=
  { State.reset with cmd := w, inFlight := some ⟨w, 0, 0, 0, 1⟩, hostQueue := [a] }

theorem hosting_moves (a : HostAccess) : HostMovesNext (hosting a) a [] := ⟨rfl, fun _ h => nomatch h⟩

theorem waiting_moves (w : Word) (a : HostAccess) : HostMovesNext (waiting w a) a [] := by
  refine ⟨rfl, fun c h => ?_⟩
  obtain rfl : (⟨w, 0, 0, 0, 1⟩ : InFlight) = c := Option.some.inj h
  exact Nat.one_pos

theorem reset_caches_correct : CachesCorrect State.reset := by
  refine ⟨?_, ?_, ?_, ?_, rfl⟩ <;> simp [State.reset, risingKeys, gen, Config.rsMaxDegree]

theorem witness_DecodeAndEncodeAreInverse : decode 0x30000702#32 = .ok (.tplLoad 7#8 2#4) := rfl

theorem witness_DecodeFollowsTheOpcodeTable :
    decode 0x520000FF#32 = .error (.reservedBitSet 0x52) ∧ decode 0x52000007#32 = .ok (.maskForce 7) ∧
    opcodeRow (.maskForce 0) ∈ opcodeRows ∧ (opcodeRow (.maskForce 0)).Matches 0x52000007#32 := by
  refine ⟨rfl, rfl, ?_, rfl⟩
  decide

theorem witness_StepRunsTheDecodedCommand :
    ((ready 0x010053CA 0 0 0 []).inFlight = some ⟨0x010053CA, 0, 0, 0, 0⟩ ∧ decode 0x010053CA#32 = .ok (.gfAdd 0x53 0xCA)) ∧
    HostMovesNext (waiting 0 (.read 0 4)) (.read 0 4) [] ∧ HostMovesNext (hosting .idle) .idle [] ∧
    (State.reset.hostQueue = [] ∧ ∀ c, State.reset.inFlight = some c → 0 < c.delay) :=
  ⟨⟨rfl, rfl⟩, waiting_moves _ _, hosting_moves _, rfl, fun _ h => nomatch h⟩

theorem witness_IllegalWordReportsIllegal :
    (ready 0x53000000 0 0 0 []).inFlight = some ⟨0x53000000, 0, 0, 0, 0⟩ ∧
    ∀ row ∈ opcodeRows, ¬ row.Matches 0x53000000#32 := by
  refine ⟨rfl, ?_⟩
  simp only [OpcodeRow.Matches]
  decide

theorem witness_EveryAcceptedCommandCompletes :
    let s : State := { State.reset with inFlight := some ⟨0, 0, 0, 0, 3⟩ }
    s.hostQueue = [] ∧ s.inFlight = some ⟨0, 0, 0, 0, 3⟩ ∧ decode 0#32 = .ok .nop := ⟨rfl, rfl, rfl⟩

theorem witness_CommandWriteIsAccepted :
    (hosting (.write 0x00C 4 0x21000004)).inFlight = none ∧
    (hosting (.write 0x00C 4 0x21000004)).hostQueue = .write 0x00C 4 0x21000004 :: [] := ⟨rfl, rfl⟩

theorem witness_CommandWriteWhileBusyIsDropped :
    (waiting 0 (.write 0x00C 4 7)).inFlight = some ⟨0, 0, 0, 0, 1⟩ ∧
    HostMovesNext (waiting 0 (.write 0x00C 4 7)) (.write 0x00C 4 7) [] ∧
    (hosting (.write 0x00C 4 7)).inFlight = none ∧
    (hosting (.write 0x00C 4 7)).hostQueue = .write 0x00C 4 7 :: [] := ⟨rfl, waiting_moves _ _, rfl, rfl⟩

/-- Each clause; the read-only offsets at the ends of their ranges. -/
theorem witness_ControlStatusAndArgumentWrites :
    HostMovesNext (waiting 0 (.write 0x008 4 0xF)) (.write 0x008 4 0xF) [] ∧
    (HostMovesNext (hosting (.write 0x004 4 0xFFFFFFFD)) (.write 0x004 4 0xFFFFFFFD) [] ∧
      (0xFFFFFFFD#32).getLsbD 1 = false) ∧
    HostMovesNext (waiting 0 (.write 0x010 4 1)) (.write 0x010 4 1) [] ∧
    HostMovesNext (hosting (.write 0x014 4 1)) (.write 0x014 4 1) [] ∧
    HostMovesNext (hosting (.write 0x018 4 1)) (.write 0x018 4 1) [] ∧
    (∀ o ∈ [0x000, 0x020, 0x054, 0x060, 0x0FC],
      (o = 0x000 ∨ (0x020 ≤ o ∧ o < 0x058) ∨ (0x060 ≤ o ∧ o < 0x100)) ∧ o % 4 = 0) ∧
    HostMovesNext (waiting 0 (.write 0x0FC 4 1)) (.write 0x0FC 4 1) [] :=
  ⟨waiting_moves _ _, ⟨hosting_moves _, rfl⟩, waiting_moves _ _, hosting_moves _, hosting_moves _, by decide,
    waiting_moves _ _⟩

/-- The reset's clauses: nothing in flight; an illegal word in flight; RS.GEN 3 in flight, with a destination. -/
theorem witness_SoftResetKeepsDmemButAbortedBytes :
    let a := HostAccess.write 0x004 4 2
    (2#32).getLsbD 1 = true ∧
    (HostMovesNext (hosting a) a [] ∧ (hosting a).dmem.wf = true ∧ (hosting a).inFlight = none) ∧
    (HostMovesNext (waiting 0xFF000000 a) a [] ∧ (waiting 0xFF000000 a).dmem.wf = true ∧
      decode 0xFF000000#32 = .error (.unknownOpcode 0xFF)) ∧
    (HostMovesNext (waiting 0x20000003 a) a [] ∧ decode 0x20000003#32 = .ok (.rsGen 3) ∧
      destinationOf (waiting 0x20000003 a) ⟨0x20000003, 0, 0, 0, 1⟩ (.rsGen 3) = some ⟨0, 4⟩) :=
  ⟨rfl, ⟨hosting_moves _, rfl, rfl⟩, ⟨waiting_moves _ _, rfl, rfl⟩, waiting_moves _ _, rfl, rfl⟩

/-- The destination's clauses: results that end at the end of DMEM, and completions with and without a destination. -/
theorem witness_SoftReset_destination :
    (SourceOk 1 (desc 4095 1) ∧ SourceOk 1 (desc 0 2) ∧ DestOk (1 + 2 - 1) 4094) ∧
    (SourceOk 0 (desc 4096 0) ∧ SourceOk 2 (desc 4094 2) ∧ DestOk (2 - 1) 4095 ∧ Memory.read [] 4094 = none ∧
      (bytesAt 4094 [1, 7]).read 4094 = some 1) ∧
    (1 ≤ (30#8).toNat ∧ (30#8).toNat ≤ Config.rsMaxDegree ∧ DestOk ((30#8).toNat + 1) 4065 ∧ DestOk (30#8).toNat 4066) ∧
    (CachesCorrect (ready 0x20000003 0 0 0 []) ∧ ∃ t, exec (.rsGen 3) (ready 0x20000003 0 0 0 []) = .next t) ∧
    (CachesCorrect (ready 0 0 0 0 []) ∧ ∃ t, exec .nop (ready 0 0 0 0 []) = .next t) := by
  refine ⟨?_, ?_, ?_, ⟨reset_caches_correct, _, rfl⟩, reset_caches_correct, _, rfl⟩ <;> simp only [SourceOk, DestOk] <;> decide

theorem witness_HardwareResetValues : HostMovesNext (waiting 0 .hardReset) .hardReset [] := waiting_moves _ _

/-- The first and the last register of the map. -/
theorem witness_RegisterReadsReturnTheRegister :
    ((0x000, 0x51524331) ∈ registerMap (waiting 0 (.read 0x000 4)) ∧
      HostMovesNext (waiting 0 (.read 0x000 4)) (.read 0x000 4) []) ∧
    ((0x0FC, 0) ∈ registerMap (hosting (.read 0x0FC 4)) ∧ HostMovesNext (hosting (.read 0x0FC 4)) (.read 0x0FC 4) []) := by
  refine ⟨⟨?_, waiting_moves _ _⟩, ?_, hosting_moves _⟩ <;> decide

theorem witness_ReadsHaveNoSideEffects :
    HostMovesNext (hosting (.read 0x1FFFC 4)) (.read 0x1FFFC 4) [] ∧ ∃ t, step (hosting (.read 0x1FFFC 4)) = .next t :=
  ⟨hosting_moves _, _, rfl⟩

/-- The last byte, the last aligned word and the first half-word of DMEM. -/
theorem witness_DmemAccessesAreLittleEndian :
    ∀ p ∈ [(4095, 1), (4092, 4), (0, 2)], (p.2 = 1 ∨ p.2 = 2 ∨ p.2 = 4) ∧ p.1 % p.2 = 0 ∧ p.1 < Config.dmemSize ∧
      State.reset.inFlight = none := by decide

/-- The window's last cell and its last word, and writes to the first and last bytes of the range. -/
theorem witness_WindowShowsTheWorkingMatrix :
    (∀ a : HostAccess, (hosting a).inFlight = none) ∧ (255 < 256 ∧ 255 % 1 = 0) ∧ (252 < 256 ∧ 252 % 4 = 0) ∧
    (hosting (.read 0x1FFFC 4)).hostQueue = .read (0x10000 + 256 * 255 + 252) 4 :: [] ∧
    (hosting (.read 0x1FFFF 1)).hostQueue = .read (0x10000 + 256 * 255 + 255) 1 :: [] ∧
    (∀ p ∈ [(0xFFFD, 4), (0x10000, 1), (0x1FFFC, 4)],
      0x1000 + Config.dmemSize ≤ p.1 ∧ p.1 < 0x20000 ∧ 0x10000 < p.1 + p.2) ∧
    (hosting (.write 0xFFFD 4 1)).hostQueue = .write 0xFFFD 4 1 :: [] :=
  ⟨fun _ => rfl, by decide, by decide, rfl, rfl, by decide, rfl⟩

/-- The ends of every reserved range in each natural width, a misaligned access inside a range, and one access of each. -/
theorem witness_ReservedOffsetsReadZero :
    (∀ p ∈ [(0x01C, 4), (0x01F, 1), (0x05E, 2), (0x058, 4), (0x05F, 1), (0x100, 4), (0xFFE, 2), (0x2000, 1), (0xFFFC, 4)],
      Reserved p.1 ∧ (p.2 = 1 ∨ p.2 = 2 ∨ p.2 = 4) ∧ p.1 % p.2 = 0) ∧
    (Reserved 0x101 ∧ ∀ j, j < 4 → Reserved (0x101 + j)) ∧
    HostMovesNext (waiting 0 (.read 0x05E 2)) (.read 0x05E 2) [] ∧
    HostMovesNext (hosting (.write 0xFFFC 4 1)) (.write 0xFFFC 4 1) [] := by
  simp only [Reserved]
  exact ⟨by decide, by decide, waiting_moves _ _, hosting_moves _⟩

/-- Each clause at boundary forms: a narrow and a misaligned register access, one that reaches a register from a reserved
word, misaligned and wrong-width DMEM accesses, misaligned window reads, and accesses while BUSY. -/
theorem witness_RefusedAccesses :
    (∀ p ∈ [(0x008, 2, 0), (0x00E, 4, 0), (0x01D, 4, 3)], p.1 < 0x1000 ∧ p.2.2 < p.2.1 ∧ ¬ Reserved (p.1 + p.2.2) ∧
      ¬(p.2.1 = 4 ∧ p.1 % 4 = 0)) ∧
    (∀ p ∈ [(0x1FFF, 2), (0x1FFD, 4), (0x1000, 8)], (0x1000 ≤ p.1 ∧ p.1 < 0x1000 + Config.dmemSize) ∧
      ¬((p.2 = 1 ∨ p.2 = 2 ∨ p.2 = 4) ∧ p.1 % p.2 = 0)) ∧
    (∀ p ∈ [(0x10001, 2), (0x1FFFE, 4), (0xFFFD, 4)], p.1 < 0x20000 ∧
      (0x10000 ≤ p.1 ∨ (0x1000 + Config.dmemSize ≤ p.1 ∧ 0x10000 < p.1 + p.2)) ∧
      ¬((p.2 = 1 ∨ p.2 = 2 ∨ p.2 = 4) ∧ p.1 % p.2 = 0)) ∧
    (∀ a, HostMovesNext (hosting a) a [] ∧ (hosting a).inFlight = none) ∧
    (∀ a, HostMovesNext (waiting 0 a) a [] ∧ (waiting 0 a).inFlight ≠ none) := by
  simp only [Reserved]
  exact ⟨by decide, by decide, by decide, fun _ => ⟨hosting_moves _, rfl⟩, fun _ => ⟨waiting_moves _ _, nofun⟩⟩

/-- Each clause, with its sources unwritten: the last DMEM word; sources at the ends of DMEM; degree 30; version 1 full. -/
theorem witness_UnwrittenByteFaults :
    (4092 % 4 = 0 ∧ 4092 < Config.dmemSize ∧ 3 < 4 ∧ (hosting (.read (0x1000 + 4092) 4)).dmem.read (4092 + 3) = none ∧
      (hosting (.read (0x1000 + 4092) 4)).inFlight = none) ∧
    (SourceOk 1 (desc 4095 1) ∧ SourceOk 1 (desc 0 1) ∧ DestOk (1 + 1 - 1) 4095 ∧
      sourceBytes (ready 0x10000000 (desc 4095 1) (desc 0 1) 4095 []) (desc 0 1) = none) ∧
    (SourceOk 0 (desc 0x1000 0) ∧ SourceOk 2 (desc 4094 2) ∧ DestOk (2 - 1) 4095 ∧
      sourceBytes (ready 0x11000000 (desc 0x1000 0) (desc 4094 2) 4095 []) (desc 4094 2) = none) ∧
    (1 ≤ (30#8).toNat ∧ (30#8).toNat ≤ Config.rsMaxDegree ∧ SourceOk 0 (desc 4095 1) ∧ DestOk 30 4066 ∧
      sourceBytes (ready 0x2100001E (desc 4095 1) 0 4066 []) (desc 4095 1) = none) ∧
    (loaded.phase = .template ∧ SourceOk 0 (desc 0 26) ∧ 8 * (sourceSpan (desc 0 26)).len ≤ loaded.capacity.toNat ∧
      sourceBytes (State.issuing loaded 0x40000000 (desc 0 26) []) (desc 0 26) = none) := by
  simp only [SourceOk, DestOk]
  decide

/-- A state with a command in flight, operands that complete and operands that raise: every scalar statement's hypotheses. -/
theorem witness_ScalarCommands :  -- NopOnlyCompletes to ScalarValueErrors
    (ready 0x0400FF01 0 0 0 []).inFlight = some ⟨0x0400FF01, 0, 0, 0, 0⟩ ∧ (1 : Byte) ≠ 0 ∧
    ¬((0 : Byte) = 0 ∧ (1 : BitVec 16) = 0) ∧ (254 : Byte) ≠ 255 ∧ (255 : Byte) ≠ 0 := ⟨rfl, by decide⟩

theorem witness_FieldLaws : (0x53 : Byte) ≠ 0 ∧ (0xCA : Byte) ≠ 0 := by decide

/-- One-byte sources at the end of DMEM and a result at its last byte. -/
theorem witness_PolyMulCompletes :
    let s := ready 0x10000000 (desc 4094 1) (desc 4095 1) 4095 (bytesAt 4094 [0x53, 0xCA])
    s.inFlight = some ⟨0x10000000, desc 4094 1, desc 4095 1, 4095, 0⟩ ∧ SourceOk 1 (desc 4094 1) ∧
    SourceOk 1 (desc 4095 1) ∧ DestOk ([(0x53 : Byte)].length + [(0xCA : Byte)].length - 1) 4095 ∧
    sourceBytes s (desc 4094 1) = some [0x53] ∧ sourceBytes s (desc 4095 1) = some [0xCA] := by
  simp only [SourceOk, DestOk]
  exact ⟨rfl, by decide⟩

/-- An empty dividend and a monic divisor of two coefficients. -/
theorem witness_PolyModCompletes :
    let s := ready 0x11000000 (desc 0x1000 0) (desc 0 2) 4095 (bytesAt 0 [1, 5])
    s.inFlight = some ⟨0x11000000, desc 0x1000 0, desc 0 2, 4095, 0⟩ ∧ SourceOk 0 (desc 0x1000 0) ∧
    SourceOk 2 (desc 0 2) ∧ DestOk ([(1 : Byte), 5].length - 1) 4095 ∧
    sourceBytes s (desc 0x1000 0) = some [] ∧ sourceBytes s (desc 0 2) = some [1, 5] ∧ [(1 : Byte), 5].head? = some 1 := by
  simp only [SourceOk, DestOk]
  exact ⟨rfl, by decide⟩

/-- Each clause at the first value that fails it. -/
theorem witness_PolyMulOperandErrorsInOrder :
    (sourceSpan (desc 0 0)).len < 1 ∧
    (1 ≤ (sourceSpan (desc 4096 1)).len ∧ ¬ SourceOk 1 (desc 4096 1)) ∧
    (SourceOk 1 (desc 4095 1) ∧ ¬ DestOk ((sourceSpan (desc 4095 1)).len + (sourceSpan (desc 4095 1)).len - 1) 4096) := by
  simp only [SourceOk, DestOk]
  decide

theorem witness_PolyModOperandErrorsInOrder :
    (¬ SourceOk 0 (desc 4097 0) ∧ (sourceSpan (desc 0 1)).len < 2) ∧
    (SourceOk 0 (desc 4096 0) ∧ 2 ≤ (sourceSpan (desc 4095 2)).len ∧ ¬ SourceOk 2 (desc 4095 2)) ∧
    (SourceOk 2 (desc 4094 2) ∧ ¬ DestOk ((sourceSpan (desc 4094 2)).len - 1) 4096) ∧
    (sourceBytes (ready 0x11000000 0 (desc 0 2) 4095 (bytesAt 0 [2, 5])) (desc 0 2) = some [2, 5] ∧
      [(2 : Byte), 5].head? = some 2 ∧ (2 : Byte) ≠ 1 ∧ SourceOk 2 (desc 0 2) ∧ DestOk ([(2 : Byte), 5].length - 1) 4095) := by
  simp only [SourceOk, DestOk]
  decide

theorem witness_GeneratorIsMonicWithItsRoots : 1 ≤ 30 ∧ 30 ≤ Config.rsMaxDegree ∧ 29 < 30 := by decide

theorem witness_CodewordIsAMultipleOfTheGenerator : 1 ≤ 1 ∧ 1 ≤ Config.rsMaxDegree ∧ 30 ≤ Config.rsMaxDegree := by decide

/-- Degree 30 with correct caches, a source at the end of DMEM and results that end there. -/
theorem witness_ReedSolomonCommandsComplete :
    let s := ready 0x2100001E (desc 4095 1) 0 4065 (bytesAt 4095 [7])
    s.inFlight = some ⟨0x2100001E, desc 4095 1, 0, 4065, 0⟩ ∧ CachesCorrect s ∧ 1 ≤ (30#8).toNat ∧
    (30#8).toNat ≤ Config.rsMaxDegree ∧ DestOk ((30#8).toNat + 1) 4065 ∧ SourceOk 0 (desc 4095 1) ∧
    DestOk (30#8).toNat 4065 ∧ sourceBytes s (desc 4095 1) = some [7] := by
  refine ⟨rfl, reset_caches_correct, ?_⟩
  simp only [SourceOk, DestOk]
  decide

theorem witness_ReedSolomonErrorsInOrder :
    ¬(1 ≤ (0#8).toNat ∧ (0#8).toNat ≤ Config.rsMaxDegree) ∧ ¬(1 ≤ (31#8).toNat ∧ (31#8).toNat ≤ Config.rsMaxDegree) ∧
    ¬ DestOk ((1#8).toNat + 1) 4095 ∧ ¬ SourceOk 0 (desc 4097 0) ∧ SourceOk 0 (desc 4096 0) ∧ ¬ DestOk (1#8).toNat 4096 := by
  simp only [SourceOk, DestOk]
  decide

/-- The last cell of the largest template, and the ends of the position table. -/
theorem witness_TemplateIsTheStampSequence : (1 ≤ 40 ∧ 40 ≤ 40 ∧ 176 < symbolWidth 40) ∧
    (1, []) ∈ annexE ∧ (40, [6, 30, 58, 86, 114, 142, 170]) ∈ annexE := by decide

theorem witness_TplLoadCompletes :
    (ready 0x30002803 0 0 0 []).inFlight = some ⟨0x30002803, 0, 0, 0, 0⟩ ∧ CachesCorrect (ready 0x30002803 0 0 0 []) ∧
    1 ≤ (40#8).toNat ∧ (40#8).toNat ≤ 40 ∧ (3#4).toNat ≤ 3 := ⟨rfl, reset_caches_correct, by decide⟩

theorem witness_TplLoadErrorsInOrder :
    ¬(1 ≤ (0#8).toNat ∧ (0#8).toNat ≤ 40) ∧ ¬(1 ≤ (41#8).toNat ∧ (41#8).toNat ≤ 40) ∧ 3 < (4#4).toNat := by decide

theorem witness_ZigzagVisitsEachDataModuleOnce : 1 ≤ 1 ∧ 1 ≤ 40 ∧ 40 ≤ 40 := by decide

/-- The longest sequence version 1 takes, written at the end of DMEM. -/
theorem witness_PlaceCompletes :
    let bs : List Byte := List.replicate 26 0xA5
    let s := State.issuing loaded 0x40000000 (desc 4070 26) (bytesAt 4070 bs)
    s.inFlight = some ⟨0x40000000, desc 4070 26, 0, 0, 0⟩ ∧ s.phase = .template ∧ SourceOk 0 (desc 4070 26) ∧
    sourceBytes s (desc 4070 26) = some bs ∧ 8 * bs.length ≤ s.capacity.toNat := by
  simp only [SourceOk]
  refine ⟨rfl, rfl, by decide, by decide +kernel, by decide⟩

theorem witness_PlaceErrorsInOrder :
    State.reset.phase ≠ .template ∧ placedEmpty.phase ≠ .template ∧ loaded.phase = .template ∧ ¬ SourceOk 0 (desc 4097 0) ∧
    SourceOk 0 (desc 0 27) ∧ loaded.capacity.toNat < 8 * (sourceSpan (desc 0 27)).len := by
  simp only [SourceOk]
  decide

/-- The reset state's version-1 symbol with PLACE in flight meets the invariant. -/
theorem loaded_inv : Inv (State.issuing loaded 0x40000000 (desc 0 1) (bytesAt 0 [0xA5])) := by
  refine ⟨⟨by decide, reset_caches_correct⟩, ⟨by decide, by decide, by decide, by decide, ?_, by decide, by decide⟩,
    ⟨by decide, fun _ => ⟨by decide, by decide, by decide, rfl, by decide +kernel⟩, fun _ => ⟨rfl, rfl⟩, by decide, by decide,
      fun _ => ⟨rfl, rfl⟩, fun h => nomatch h⟩, ?_, ?_, fun _ => rfl, fun h => nomatch h⟩
  · rintro c h
    obtain rfl := Option.some.inj h
    rfl
  · decide
  · decide

/-- PLACE of one byte, then MASK.FORCE 7, from a state of the invariant. -/
theorem witness_PlacementRoundTrip :
    let s := State.issuing loaded 0x40000000 (desc 0 1) (bytesAt 0 [0xA5])
    Inv s ∧ s.inFlight = some ⟨0x40000000, desc 0 1, 0, 0, 0⟩ ∧ sourceBytes s (desc 0 1) = some [0xA5] ∧
    s.phase = .template ∧ ∃ t, exec .place s = .next t ∧ t.phase = .placed ∧
      ∃ u, exec (.maskForce 7) { t with inFlight := some ⟨0x52000007, 0, 0, 0, 0⟩ } = .next u ∧ u.mask = BitVec.ofNat 4 7 := by
  refine ⟨loaded_inv, rfl, by decide, rfl, _, rfl, rfl, _, rfl, rfl⟩

/-- A matrix of version 1's width: CandidateFlipsMaskedDataModules, RuleACountsMaximalRuns, RulesBAndCCountWindows,
RuleDScoresTheBalance and FormatWriteCells. -/
theorem witness_Square : (Matrix.tabulate 21 fun r c => ⟨(r + c) % 2 == 0, r == 6⟩).Square 21 ∧ 20 < 21 ∧ 21 ≤ 21 := by
  simp only [Matrix.Square]
  decide +kernel

theorem witness_RuleACountsMaximalRuns : 1 ≤ 5 ∧ [true].head? ≠ some false ∧ ([] : List Bool).head? ≠ some true := by decide

theorem witness_FormatAndVersionWordsAreCodewords : 7 ≤ 7 ∧ 7 ≤ 40 ∧ 40 ≤ 40 := by decide

/-- Every mask command's hypotheses in PHASE = PLACED. -/
theorem witness_MaskCommandsComplete :
    (State.issuing placedEmpty 0x51000000 0 []).inFlight = some ⟨0x51000000, 0, 0, 0, 0⟩ ∧
    (State.issuing placedEmpty 0x51000000 0 []).phase = .placed ∧ (0 : BitVec 3) ≠ 7 := ⟨rfl, rfl, by decide⟩

theorem witness_MaskCommandsNeedPlacedPhase :
    (State.issuing loaded 0x51000000 0 []).inFlight = some ⟨0x51000000, 0, 0, 0, 0⟩ ∧
    (State.issuing loaded 0x51000000 0 []).phase ≠ .placed := ⟨rfl, by decide⟩

theorem witness_CompletionSetsOneFlagAndCounts :
    let s := ready 0 0 0 0 []
    s.done = false ∧ s.err = false ∧ ∃ t, exec .nop s = .next t := ⟨rfl, rfl, _, rfl⟩

theorem witness_ErrorCompletionsHaveNoOtherEffect :
    let s := ready 0x07000000 0 0 0 []
    s.inFlight = some ⟨0x07000000, 0, 0, 0, 0⟩ ∧ s.err = false ∧ ∃ t, step s = .next t ∧ t.err = true :=
  ⟨rfl, rfl, _, rfl, rfl⟩

theorem witness_CommandsKeepTheHostRegisters : ∃ t, exec (.rsGen 2) (ready 0x20000002 0 0 0 []) = .next t := ⟨_, rfl⟩

theorem witness_OnlyFourCommandsWriteTheMatrix :
    (∃ t, exec (.maskForce 1) (State.issuing placedEmpty 0x52000001 0 []) = .next t) ∧
    (∀ ver lvl, Instr.maskForce 1 ≠ .tplLoad ver lvl) ∧ Instr.nop ≠ .place ∧ Instr.nop ≠ .maskOpt ∧
    (∀ k, Instr.nop ≠ .maskForce k) := by
  refine ⟨⟨_, rfl⟩, ?_, ?_, ?_, ?_⟩ <;> intros <;> intro h <;> cases h

/-- A final symbol, with nothing to do, with a TPL.LOAD about to complete, and with the reset input next. -/
theorem witness_FinalSymbolStaysUntilReplaced :
    let s : State := { placedEmpty with phase := .final, hostQueue := [.idle] }
    s.phase = .final ∧ (∃ t, step s = .next t) ∧ (∃ t, step { s with hostQueue := [.hardReset] } = .next t) ∧
    ∃ t, step { s with inFlight := some ⟨0x30000101, 0, 0, 0, 0⟩ } = .next t := ⟨rfl, ⟨_, rfl⟩, ⟨_, rfl⟩, _, rfl⟩

/-- The reset machine, and the same with degree 2 cached as well. -/
theorem witness_CachesAreInvisible :
    let s := ready 0x20000002 0 0 0 []
    let s' := { s with genCache := [(1, [0x01, 0x01]), (2, [0x01, 0x03, 0x02])] }
    CachesCorrect s ∧ CachesCorrect s' ∧ AlikeButCaches s s' ∧ (∃ t, step s = .next t) ∧
    step (hosting (.read 0x1000 1)) = .fault .dmemUnwritten ∧
    step (hosting (.read 0x008 1)) = .refused .registerAccessForm := by
  refine ⟨reset_caches_correct, ⟨?_, ?_, ?_, ?_, rfl⟩, rfl, ⟨_, rfl⟩, rfl, rfl⟩
  · simp [risingKeys]
  · simp [risingKeys, ready, State.reset]
  · simp only [Config.rsMaxDegree]
    decide
  · simp [ready, State.reset]

theorem witness_StepKeepsTheInvariant :
    let s := State.issuing loaded 0x40000000 (desc 0 1) (bytesAt 0 [0xA5])
    Inv s ∧ ∃ t, step s = .next t := ⟨loaded_inv, _, rfl⟩

end Sys2Proof.Tests
end

section
/-! PROOF. The decoder and the opcode table of R87 (30_encoding.md): a word decodes to a command exactly when it matches the
command's row and the command's fields are the word's. R87's table and R90's completion of an illegal word follow. -/

namespace Sys2Proof.Encoding

open Sys2Proof Sys2Proof.Machine

/-! ## Masked comparisons, part by part -/

/-- Equal concatenations of equal shape have equal parts. -/
theorem append_eq_append_iff {k l : Nat} {a b : BitVec k} {c d : BitVec l} : a ++ c = b ++ d ↔ a = b ∧ c = d := by
  constructor
  · intro h
    have hl := congrArg (BitVec.extractLsb' l k) h
    have hr := congrArg (BitVec.extractLsb' 0 l) h
    rw [BitVec.extractLsb'_append_eq_left, BitVec.extractLsb'_append_eq_left] at hl
    rw [BitVec.extractLsb'_append_eq_right, BitVec.extractLsb'_append_eq_right] at hr
    exact ⟨hl, hr⟩
  · rintro ⟨rfl, rfl⟩
    rfl

/-- A mask and a pattern in two parts are compared with the two parts of the bits they cover. -/
theorem extractLsb'_and_append_eq_append_iff {n k l : Nat} (w : BitVec n) (s : Nat) (m p : BitVec k) (m' p' : BitVec l) :
    w.extractLsb' s (k + l) &&& (m ++ m') = p ++ p' ↔
      w.extractLsb' (s + l) k &&& m = p ∧ w.extractLsb' s l &&& m' = p' := by
  rw [← BitVec.extractLsb'_append_extractLsb'_eq_extractLsb' rfl, BitVec.and_append, append_eq_append_iff]

/-- Every row's mask covers the opcode; `m` is what it covers of the 24 bits after it, and all of that is 0. -/
theorem and_opcodeMask_iff (w : Word) (op : BitVec 8) (m : BitVec 24) :
    w &&& (BitVec.allOnes 8 ++ m) = op ++ 0#24 ↔ fieldOp w = op ∧ w.extractLsb' 0 24 &&& m = 0#24 := by
  have h := extractLsb'_and_append_eq_append_iff w 0 (BitVec.allOnes 8) op m 0#24
  rwa [BitVec.extractLsb'_eq_self, BitVec.and_allOnes] at h

/-- A mask of `k` ones above `l` zeros compares the `k` bits alone. -/
theorem and_onesThenZeros_iff (w : Word) (k l : Nat) :
    w.extractLsb' 0 (k + l) &&& (BitVec.allOnes k ++ 0#l) = 0#k ++ 0#l ↔ (w.extractLsb' l k == 0#k) = true := by
  rw [extractLsb'_and_append_eq_append_iff, BitVec.and_allOnes, BitVec.and_zero, Nat.zero_add, beq_iff_eq]
  exact and_iff_left rfl

/-! ## The six formats' masks (R81) -/

theorem and_maskN_iff (w : Word) (op : BitVec 8) :
    w &&& 0xFFFFFFFF#32 = op ++ 0#24 ↔ fieldOp w = op ∧ reservedZeroN w = true :=
  (and_opcodeMask_iff w op (BitVec.allOnes 24 ++ 0#0)).trans (and_congr_right' (and_onesThenZeros_iff w 24 0))

theorem and_maskG_iff (w : Word) (op : BitVec 8) :
    w &&& 0xFFFF0000#32 = op ++ 0#24 ↔ fieldOp w = op ∧ reservedZeroG w = true :=
  (and_opcodeMask_iff w op (BitVec.allOnes 8 ++ 0#16)).trans (and_congr_right' (and_onesThenZeros_iff w 8 16))

theorem and_maskP_iff (w : Word) (op : BitVec 8) : w &&& 0xFF000000#32 = op ++ 0#24 ↔ fieldOp w = op :=
  (and_opcodeMask_iff w op 0#24).trans (and_iff_left BitVec.and_zero)

theorem and_maskU_iff (w : Word) (op : BitVec 8) :
    w &&& 0xFFFFFF00#32 = op ++ 0#24 ↔ fieldOp w = op ∧ reservedZeroU w = true :=
  (and_opcodeMask_iff w op (BitVec.allOnes 16 ++ 0#8)).trans (and_congr_right' (and_onesThenZeros_iff w 16 8))

theorem and_maskK_iff (w : Word) (op : BitVec 8) :
    w &&& 0xFFFFFFF8#32 = op ++ 0#24 ↔ fieldOp w = op ∧ reservedZeroK w = true :=
  (and_opcodeMask_iff w op (BitVec.allOnes 21 ++ 0#3)).trans (and_congr_right' (and_onesThenZeros_iff w 21 3))

/-- Format T has Z above VER and above LVL. -/
theorem and_maskT_iff (w : Word) (op : BitVec 8) :
    w &&& 0xFFFF00F0#32 = op ++ 0#24 ↔ fieldOp w = op ∧ reservedZeroT w = true := by
  have hlow : w.extractLsb' 0 16 &&& (0#8 ++ (BitVec.allOnes 4 ++ 0#4)) = 0#8 ++ 0#8 ↔
      (w.extractLsb' 4 4 == 0#4) = true :=
    (extractLsb'_and_append_eq_append_iff w 0 0#8 0#8 _ 0#8).trans
      ((and_iff_right BitVec.and_zero).trans (and_onesThenZeros_iff w 4 4))
  have hall : w.extractLsb' 0 24 &&& (BitVec.allOnes 8 ++ (0#8 ++ (BitVec.allOnes 4 ++ 0#4))) = 0#8 ++ 0#16 ↔
      reservedZeroT w = true := by
    rw [extractLsb'_and_append_eq_append_iff w 0 (BitVec.allOnes 8) 0#8 _ 0#16, BitVec.and_allOnes, reservedZeroT,
      Bool.and_eq_true, beq_iff_eq]
    exact and_congr_right' hlow
  exact (and_opcodeMask_iff w op _).trans (and_congr_right' hall)

/-! ## A command's opcode, reserved bits and fields -/

/-- OP of a command (R87). -/
def opcode : Instr → BitVec 8
  | .nop => 0x00
  | .gfAdd _ _ => 0x01
  | .gfSub _ _ => 0x02
  | .gfMul _ _ => 0x03
  | .gfDiv _ _ => 0x04
  | .gfPow _ _ => 0x05
  | .gfExp _ => 0x06
  | .gfLog _ => 0x07
  | .polyMul => 0x10
  | .polyMod => 0x11
  | .rsGen _ => 0x20
  | .rsEcc _ => 0x21
  | .tplLoad _ _ => 0x30
  | .place => 0x40
  | .maskScore _ => 0x50
  | .maskOpt => 0x51
  | .maskForce _ => 0x52

/-- Whether the reserved bits of a command's format are 0 in a word (R81). Format P has none. -/
def reservedZero : Instr → Word → Bool
  | .nop | .polyMul | .polyMod | .place | .maskOpt => reservedZeroN
  | .gfAdd _ _ | .gfSub _ _ | .gfMul _ _ | .gfDiv _ _ => reservedZeroG
  | .gfPow _ _ => fun _ => true
  | .gfExp _ | .gfLog _ | .rsGen _ | .rsEcc _ => reservedZeroU
  | .tplLoad _ _ => reservedZeroT
  | .maskScore _ | .maskForce _ => reservedZeroK

/-- The same command with its fields read from a word (R82). -/
def withFields (w : Word) : Instr → Instr
  | .nop => .nop
  | .gfAdd _ _ => .gfAdd (field15 w) (field7 w)
  | .gfSub _ _ => .gfSub (field15 w) (field7 w)
  | .gfMul _ _ => .gfMul (field15 w) (field7 w)
  | .gfDiv _ _ => .gfDiv (field15 w) (field7 w)
  | .gfPow _ _ => .gfPow (field23 w) (fieldE w)
  | .gfExp _ => .gfExp (field7 w)
  | .gfLog _ => .gfLog (field7 w)
  | .polyMul => .polyMul
  | .polyMod => .polyMod
  | .rsGen _ => .rsGen (field7 w)
  | .rsEcc _ => .rsEcc (field7 w)
  | .tplLoad _ _ => .tplLoad (field15 w) (fieldLvl w)
  | .place => .place
  | .maskScore _ => .maskScore (fieldK w)
  | .maskOpt => .maskOpt
  | .maskForce _ => .maskForce (fieldK w)

/-- A command's row does not depend on its fields. -/
@[simp] theorem opcodeRow_withFields (w : Word) (i : Instr) : opcodeRow (withFields w i) = opcodeRow i := by
  cases i <;> rfl

@[simp] theorem withFields_withFields (w : Word) (i : Instr) : withFields w (withFields w i) = withFields w i := by
  cases i <;> rfl

/-- Below the opcode a row's match is 0. -/
theorem opcodeRow_pattern (i : Instr) : (opcodeRow i).pattern = opcode i ++ 0#24 := by
  cases i <;> simp only [opcodeRow, opcode] <;> decide

/-- A word matches a command's row when it has the command's opcode and zeros where the format has Z. -/
theorem matches_opcodeRow_iff (i : Instr) (w : Word) :
    (opcodeRow i).Matches w ↔ fieldOp w = opcode i ∧ reservedZero i w = true := by
  rw [OpcodeRow.Matches, opcodeRow_pattern]
  cases i with
  | nop | polyMul | polyMod | place | maskOpt => exact and_maskN_iff w _
  | gfAdd | gfSub | gfMul | gfDiv => exact and_maskG_iff w _
  | gfPow => exact (and_maskP_iff w _).trans (and_iff_left rfl).symm
  | gfExp | gfLog | rsGen | rsEcc => exact and_maskU_iff w _
  | tplLoad => exact and_maskT_iff w _
  | maskScore | maskForce => exact and_maskK_iff w _

/-! ## The decoder -/

theorem legalIf_eq_ok_iff {legal : Bool} {op : BitVec 8} {i j : Instr} :
    legalIf legal op i = .ok j ↔ legal = true ∧ i = j := by
  cases legal <;> simp [legalIf]

/-- With a listed opcode, the decoder checks that command's reserved bits and reads its fields. -/
theorem decode_of_fieldOp_eq {w : Word} {i : Instr} (h : fieldOp w = opcode i) :
    decode w = legalIf (reservedZero i w) (fieldOp w) (withFields w i) := by
  cases i <;> simp [decode, h, opcode, reservedZero, withFields]

/-- An opcode that is no command's is illegal. -/
theorem decode_of_fieldOp_ne {w : Word} (h : ∀ i, fieldOp w ≠ opcode i) :
    decode w = .error (.unknownOpcode (fieldOp w)) := by
  unfold decode
  exact (if_neg (h .nop)).trans <| (if_neg (h (.gfAdd 0 0))).trans <| (if_neg (h (.gfSub 0 0))).trans <|
    (if_neg (h (.gfMul 0 0))).trans <| (if_neg (h (.gfDiv 0 0))).trans <| (if_neg (h (.gfPow 0 0))).trans <|
    (if_neg (h (.gfExp 0))).trans <| (if_neg (h (.gfLog 0))).trans <| (if_neg (h .polyMul)).trans <|
    (if_neg (h .polyMod)).trans <| (if_neg (h (.rsGen 0))).trans <| (if_neg (h (.rsEcc 0))).trans <|
    (if_neg (h (.tplLoad 0 0))).trans <| (if_neg (h .place)).trans <| (if_neg (h (.maskScore 0))).trans <|
    (if_neg (h .maskOpt)).trans <| if_neg (h (.maskForce 0))

/-- A word that matches a command's row decodes to that command with the word's fields. -/
theorem decode_of_matches {w : Word} {i : Instr} (h : (opcodeRow i).Matches w) : decode w = .ok (withFields w i) := by
  obtain ⟨hop, hz⟩ := (matches_opcodeRow_iff i w).mp h
  rw [decode_of_fieldOp_eq hop, hz]
  rfl

/-- The decoder's legal answers: a command whose row the word matches, with the word's own fields. -/
theorem decode_eq_ok_iff {w : Word} {i : Instr} : decode w = .ok i ↔ (opcodeRow i).Matches w ∧ withFields w i = i := by
  constructor
  · intro h
    by_cases hop : ∃ j, fieldOp w = opcode j
    · obtain ⟨j, hj⟩ := hop
      rw [decode_of_fieldOp_eq hj, legalIf_eq_ok_iff] at h
      obtain ⟨hz, rfl⟩ := h
      rw [opcodeRow_withFields, withFields_withFields]
      exact ⟨(matches_opcodeRow_iff j w).mpr ⟨hj, hz⟩, rfl⟩
    · rw [decode_of_fieldOp_ne (not_exists.mp hop)] at h
      cases h
  · rintro ⟨hm, hf⟩
    rw [decode_of_matches hm, hf]

theorem matches_of_decode_eq_ok {w : Word} {i : Instr} (h : decode w = .ok i) : (opcodeRow i).Matches w :=
  (decode_eq_ok_iff.mp h).1

/-! ## The table -/

/-- The seventeen rows are the commands' rows. -/
theorem mem_opcodeRows_iff {row : OpcodeRow} : row ∈ opcodeRows ↔ ∃ i, opcodeRow i = row := by
  constructor
  · intro h
    simp only [opcodeRows, List.cons_append, List.nil_append, List.mem_cons, List.not_mem_nil, or_false] at h
    rcases h with h | h | h | h | h | h | h | h | h | h | h | h | h | h | h | h | h <;> exact ⟨_, h.symm⟩
  · rintro ⟨i, rfl⟩
    cases i <;> simp [opcodeRows, opcodeRow]

/-- A word that matches a row of the table decodes to a command of that row. -/
theorem exists_decode_of_matches {w : Word} {row : OpcodeRow} (hrow : row ∈ opcodeRows) (h : row.Matches w) :
    ∃ i, decode w = .ok i ∧ opcodeRow i = row := by
  obtain ⟨j, rfl⟩ := mem_opcodeRows_iff.mp hrow
  exact ⟨_, decode_of_matches h, opcodeRow_withFields w j⟩

/-- The decoder is a function, so no word matches two rows. -/
theorem opcodeRow_unique {w : Word} {row row' : OpcodeRow} (hrow : row ∈ opcodeRows) (hrow' : row' ∈ opcodeRows)
    (h : row.Matches w) (h' : row'.Matches w) : row = row' := by
  obtain ⟨i, hi, rfl⟩ := exists_decode_of_matches hrow h
  obtain ⟨j, hj, rfl⟩ := exists_decode_of_matches hrow' h'
  obtain rfl : i = j := Except.ok.inj (hi.symm.trans hj)
  rfl

/-- Settles O3: a row match is the opcode and the reserved bits, which is what the decoder tests. -/
theorem decodeFollowsTheOpcodeTable : Obligations.DecodeFollowsTheOpcodeTable := by
  refine ⟨fun w i h => ⟨mem_opcodeRows_iff.mpr ⟨i, rfl⟩, matches_of_decode_eq_ok h⟩, ?_, ?_⟩
  · exact fun w row hrow h => exists_decode_of_matches hrow h
  · exact fun w row row' hrow hrow' h h' => opcodeRow_unique hrow hrow' h h'

/-! ## An illegal word (R90) -/

/-- A word that matches no row is illegal. -/
theorem exists_decode_eq_error {w : Word} (h : ∀ row ∈ opcodeRows, ¬ row.Matches w) : ∃ e, decode w = .error e := by
  cases hd : decode w with
  | error e => exact ⟨e, rfl⟩
  | ok i => exact absurd (matches_of_decode_eq_ok hd) (h _ (mem_opcodeRows_iff.mpr ⟨i, rfl⟩))

/-- With its latency over, the step completes the command in flight. -/
theorem step_of_delay_zero {s : State} {c : InFlight} (hc : s.inFlight = some c) (hd : c.delay = 0) :
    step s = completeCommand c s := by
  simp [step, hc, hd]

theorem completeCommand_of_decode_error {c : InFlight} {s : State} {e : IllegalCommand} (h : decode c.word = .error e) :
    completeCommand c s = .next (reported s 0x01 0 c.word) := by
  simp only [completeCommand, h]
  rfl

/-- Settles O5: the word decodes to no command, and the completion then reports it. -/
theorem illegalWordReportsIllegal : Obligations.IllegalWordReportsIllegal := by
  intro s c hc hd hrows
  obtain ⟨e, he⟩ := exists_decode_eq_error hrows
  rw [step_of_delay_zero hc hd, completeCommand_of_decode_error he]

end Sys2Proof.Encoding
end

section
/-! PROOF. The field laws of R108 (40_gf.md), and GF.ADD and GF.SUB (R112, R113). Every nonzero byte is a power of 2 by repeated
doubling, and products add the exponents: associativity, the unit, division and powers are arithmetic of exponents.
Multiplication by a nonzero byte is then repeated doubling, which is linear over XOR: the distributive law. -/

namespace Sys2Proof.FieldArithmetic

open Sys2Proof Sys2Proof.Machine

/-! ## Doubling (R100) -/

/-- Doubling shifts left within the byte; the bit shifted out adds the reducer's low byte. -/
theorem timesTwo_eq_xor (b : Byte) : timesTwo b = b <<< 1 ^^^ (if b.getLsbD 7 then 0x1D#8 else 0#8) := by
  have hout : (b.setWidth 9 <<< 1).getLsbD 8 = b.getLsbD 7 := by simp
  have hshift : (b.setWidth 9 <<< 1).setWidth 8 = b <<< 1 := by ext i hi; simp
  simp only [timesTwo, hout]
  split
  · rw [BitVec.setWidth_xor, hshift]
    rfl
  · rw [hshift, BitVec.xor_zero]

/-- Shifting and the test of the top bit both distribute over XOR. -/
theorem timesTwo_xor (a b : Byte) : timesTwo (a ^^^ b) = timesTwo a ^^^ timesTwo b := by
  have hreducer : ∀ p q : Bool, (if p ^^ q then 0x1D#8 else 0#8) =
      (if p then 0x1D#8 else 0#8) ^^^ (if q then 0x1D#8 else 0#8) := by decide
  simp only [timesTwo_eq_xor, BitVec.shiftLeft_xor_distrib, BitVec.getLsbD_xor, hreducer]
  ac_rfl

theorem iterate_timesTwo_xor (n : Nat) (a b : Byte) :
    timesTwo^[n] (a ^^^ b) = timesTwo^[n] a ^^^ timesTwo^[n] b :=
  (Function.Semiconj₂.iterate timesTwo_xor n) a b

theorem iterate_timesTwo_zero (n : Nat) : timesTwo^[n] 0 = 0 := Function.iterate_fixed (by decide) n

theorem iterate_timesTwo_powerOfTwo (n k : Nat) : timesTwo^[n] (powerOfTwo k) = powerOfTwo (n + k) := by
  induction n with
  | zero => rw [Nat.zero_add, Function.iterate_zero_apply]
  | succ n ih => rw [Function.iterate_succ_apply', ih, Nat.succ_add, powerOfTwo]

/-! ## The tables hold the powers of 2 (R100 to R103) -/

/-- Each entry of EXP is the double of the one before it, and the first is the double of the last. -/
theorem timesTwo_expAt : ∀ i : Fin 255, timesTwo (expAt i.val) = expAt ((i.val + 1) % 255) := by decide +kernel

theorem powerOfTwo_eq_expAt (n : Nat) : powerOfTwo n = expAt (n % 255) := by
  induction n with
  | zero => rfl
  | succ n ih =>
    rw [powerOfTwo, ih, timesTwo_expAt ⟨n % 255, Nat.mod_lt n (by decide)⟩, Nat.mod_add_mod]

/-- The powers of 2 repeat after 255. -/
theorem powerOfTwo_congr {m n : Nat} (h : m % 255 = n % 255) : powerOfTwo m = powerOfTwo n := by
  rw [powerOfTwo_eq_expAt, powerOfTwo_eq_expAt, h]

theorem powerOfTwo_ne_zero (n : Nat) : powerOfTwo n ≠ 0 := by
  have hexp : ∀ i : Fin 255, expAt i.val ≠ 0 := by decide +kernel
  rw [powerOfTwo_eq_expAt]
  exact hexp ⟨n % 255, Nat.mod_lt n (by decide)⟩

theorem logAt_powerOfTwo (n : Nat) : logAt (powerOfTwo n) = n % 255 := by
  rw [powerOfTwo_eq_expAt]
  exact logAt_expAt ⟨n % 255, Nat.mod_lt n (by decide)⟩

theorem expAt_logAt_and_logAt_lt {a : Byte} (ha : a ≠ 0) : expAt (logAt a) = a ∧ logAt a < 255 := by
  have h := expAt_logAt a.toFin fun h0 => ha (BitVec.eq_of_toNat_eq h0)
  rwa [show BitVec.ofNat 8 a.toFin.val = a from BitVec.ofNat_toNat 8 a] at h

theorem logAt_lt {a : Byte} (ha : a ≠ 0) : logAt a < 255 := (expAt_logAt_and_logAt_lt ha).2

theorem powerOfTwo_logAt {a : Byte} (ha : a ≠ 0) : powerOfTwo (logAt a) = a := by
  rw [powerOfTwo_eq_expAt, Nat.mod_eq_of_lt (logAt_lt ha), (expAt_logAt_and_logAt_lt ha).1]

theorem exists_powerOfTwo_eq {a : Byte} (ha : a ≠ 0) : ∃ i, powerOfTwo i = a := ⟨logAt a, powerOfTwo_logAt ha⟩

/-! ## The operations on powers of 2 (R105 to R107) -/

theorem gfmul_zero (a : Byte) : gfmul a 0 = 0 := by simp [gfmul]

theorem zero_gfmul (a : Byte) : gfmul 0 a = 0 := by simp [gfmul]

theorem gfmul_powerOfTwo (i j : Nat) : gfmul (powerOfTwo i) (powerOfTwo j) = powerOfTwo (i + j) := by
  rw [gfmul, if_neg (not_or.mpr ⟨powerOfTwo_ne_zero i, powerOfTwo_ne_zero j⟩), logAt_powerOfTwo, logAt_powerOfTwo,
    ← Nat.add_mod, powerOfTwo_eq_expAt]

theorem gfdiv_of_ne_zero {a b : Byte} (ha : a ≠ 0) (hb : b ≠ 0) :
    gfdiv a b = some (powerOfTwo (logAt a + 255 - logAt b)) := by
  rw [gfdiv, if_neg hb, if_neg ha, powerOfTwo_eq_expAt]

/-- The exponent 0 needs no case of its own: 2^0 is 1. -/
theorem gfpow_of_ne_zero {a : Byte} (ha : a ≠ 0) (e : Nat) : gfpow a e = some (powerOfTwo (logAt a * e)) := by
  rw [gfpow, if_neg fun h => ha h.1, if_neg ha]
  split
  case isTrue he => rw [he, Nat.mul_zero, powerOfTwo]
  case isFalse => rw [powerOfTwo_eq_expAt]

/-- Multiplying by a nonzero `a` doubles LOG[a] times. -/
theorem gfmul_eq_iterate_timesTwo {a : Byte} (ha : a ≠ 0) (b : Byte) : gfmul a b = timesTwo^[logAt a] b := by
  by_cases hb : b = 0
  · rw [hb, gfmul_zero, iterate_timesTwo_zero]
  · obtain ⟨j, rfl⟩ := exists_powerOfTwo_eq hb
    rw [iterate_timesTwo_powerOfTwo, ← gfmul_powerOfTwo, powerOfTwo_logAt ha]

/-! ## The laws (R108) -/

theorem gfadd_self (a : Byte) : gfadd a a = 0 := BitVec.xor_self

theorem gfmul_comm (a b : Byte) : gfmul a b = gfmul b a := by
  simp only [gfmul, or_comm, Nat.add_comm]

theorem gfmul_assoc (a b c : Byte) : gfmul (gfmul a b) c = gfmul a (gfmul b c) := by
  rcases eq_or_ne a 0 with rfl | ha
  · simp only [zero_gfmul]
  rcases eq_or_ne b 0 with rfl | hb
  · simp only [zero_gfmul, gfmul_zero]
  rcases eq_or_ne c 0 with rfl | hc
  · simp only [gfmul_zero]
  obtain ⟨i, rfl⟩ := exists_powerOfTwo_eq ha
  obtain ⟨j, rfl⟩ := exists_powerOfTwo_eq hb
  obtain ⟨k, rfl⟩ := exists_powerOfTwo_eq hc
  simp only [gfmul_powerOfTwo, Nat.add_assoc]

/-- Multiplication by `a` is repeated doubling, and doubling is linear. -/
theorem gfmul_gfadd (a b c : Byte) : gfmul a (gfadd b c) = gfadd (gfmul a b) (gfmul a c) := by
  by_cases ha : a = 0
  · rw [ha, zero_gfmul, zero_gfmul, zero_gfmul, gfadd_self]
  · simp only [gfmul_eq_iterate_timesTwo ha, gfadd, iterate_timesTwo_xor]

theorem gfmul_one (a : Byte) : gfmul a 1 = a := by
  by_cases ha : a = 0
  · rw [ha, zero_gfmul]
  · obtain ⟨i, rfl⟩ := exists_powerOfTwo_eq ha
    exact gfmul_powerOfTwo i 0

/-- The exponents of the quotient and of `b` add up to LOG[a] + 255. -/
theorem exists_gfdiv_gfmul_eq {a b : Byte} (ha : a ≠ 0) (hb : b ≠ 0) : ∃ q, gfdiv a b = some q ∧ gfmul q b = a := by
  refine ⟨_, gfdiv_of_ne_zero ha hb, ?_⟩
  have hle : logAt b ≤ logAt a + 255 := (logAt_lt hb).le.trans (Nat.le_add_left 255 _)
  calc gfmul (powerOfTwo (logAt a + 255 - logAt b)) b
      = gfmul (powerOfTwo (logAt a + 255 - logAt b)) (powerOfTwo (logAt b)) := by rw [powerOfTwo_logAt hb]
    _ = powerOfTwo (logAt a + 255) := by rw [gfmul_powerOfTwo, Nat.sub_add_cancel hle]
    _ = powerOfTwo (logAt a) := powerOfTwo_congr (Nat.add_mod_right _ 255)
    _ = a := powerOfTwo_logAt ha

theorem gfpow_one {a : Byte} (ha : a ≠ 0) : gfpow a 1 = some a := by
  rw [gfpow_of_ne_zero ha, Nat.mul_one, powerOfTwo_logAt ha]

theorem gfpow_255 {a : Byte} (ha : a ≠ 0) : gfpow a 255 = some 1 := by
  rw [gfpow_of_ne_zero ha, powerOfTwo_congr (n := 0) (Nat.mul_mod_left _ 255), powerOfTwo]

/-- Settles O26: the nine laws above. -/
theorem fieldLaws : Obligations.FieldLaws :=
  ⟨fun _ _ => exists_gfdiv_gfmul_eq, gfmul_comm, gfadd_self, fun _ => gfpow_one, gfpow_255 (by decide), gfmul_assoc,
    gfmul_gfadd, gfmul_one, fun _ => gfpow_255⟩

/-! ## GF.ADD and GF.SUB -/

/-- A command that only sets RES0 completes with it. -/
theorem withCommand_res0_succeed {s : State} {c : InFlight} (hc : s.inFlight = some c) (v : Word) :
    (s.withCommand fun _ => { s with res0 := v }.succeed) = .next (completed { s with res0 := v }) :=
  State.withCommand_of_some hc

/-- Settles O20: gfadd and gfsub are XOR by definition (R104), and both commands set RES0 and nothing else. -/
theorem gfAddAndSubCompleteWithXor : Obligations.GfAddAndSubCompleteWithXor := by
  intro s c a b hc
  exact ⟨withCommand_res0_succeed hc (zext (gfadd a b)), withCommand_res0_succeed hc (zext (gfsub a b))⟩

end Sys2Proof.FieldArithmetic
end

section
/-! PROOF. Generator polynomials and codewords (R140 to R144 of 41_rs.md). The value of a product is the product of the
values, so gen(n) has the roots of its linear factors. What is added to the coefficients that synthetic division leaves is
added to the remainder, so the remainder of data ++ ecc(data, n) is ecc(data, n) added to itself. -/

namespace Sys2Proof.ReedSolomon

open Sys2Proof Sys2Proof.Machine Sys2Proof.FieldArithmetic

/-! ## Sums and products of field elements -/

@[simp] theorem gfadd_zero (a : Byte) : gfadd a 0 = a := BitVec.xor_zero

@[simp] theorem zero_gfadd (a : Byte) : gfadd 0 a = a := BitVec.zero_xor

theorem gfadd_assoc (a b c : Byte) : gfadd (gfadd a b) c = gfadd a (gfadd b c) := BitVec.xor_assoc a b c

theorem gfadd_comm (a b : Byte) : gfadd a b = gfadd b a := BitVec.xor_comm a b

theorem gfadd_left_comm (a b c : Byte) : gfadd a (gfadd b c) = gfadd b (gfadd a c) := by
  rw [← gfadd_assoc, gfadd_comm a b, gfadd_assoc]

theorem gfadd_right_comm (a b c : Byte) : gfadd (gfadd a b) c = gfadd (gfadd a c) b := by
  rw [gfadd_assoc, gfadd_comm b c, gfadd_assoc]

@[simp] theorem one_gfmul (a : Byte) : gfmul 1 a = a := by rw [gfmul_comm, gfmul_one]

theorem gfadd_gfmul (a b c : Byte) : gfmul (gfadd a b) c = gfadd (gfmul a c) (gfmul b c) := by
  simp only [gfmul_comm _ c, gfmul_gfadd]

theorem gfmul_right_comm (a b c : Byte) : gfmul (gfmul a b) c = gfmul (gfmul a c) b := by
  rw [gfmul_assoc, gfmul_comm b c, gfmul_assoc]

theorem foldedProduct_add (x : Byte) (m n : Nat) :
    foldedProduct x (m + n) = gfmul (foldedProduct x m) (foldedProduct x n) := by
  induction m with
  | zero => rw [Nat.zero_add, foldedProduct, one_gfmul]
  | succ m ih => rw [Nat.succ_add, foldedProduct, foldedProduct, ih, gfmul_assoc]

/-! ## Adding onto the leading coefficients -/

@[simp] theorem length_zeros (n : Nat) : (zeros n).length = n := List.length_replicate

theorem zeros_succ (n : Nat) : zeros (n + 1) = 0 :: zeros n := rfl

@[simp] theorem xorPrefix_nil (p : List Byte) : xorPrefix p [] = p := by cases p <;> rfl

@[simp] theorem nil_xorPrefix (q : List Byte) : xorPrefix [] q = [] := by cases q <;> rfl

@[simp] theorem length_xorPrefix (p q : List Byte) : (xorPrefix p q).length = p.length := by
  induction p, q using xorPrefix.induct with
  | case1 p => rw [xorPrefix_nil]
  | case2 => rfl
  | case3 x p y q ih => simp [xorPrefix, ih]

theorem xorPrefix_right_comm (p q r : List Byte) : xorPrefix (xorPrefix p q) r = xorPrefix (xorPrefix p r) q := by
  induction p generalizing q r with
  | nil => simp only [nil_xorPrefix]
  | cons x p ih =>
    cases q with
    | nil => simp only [xorPrefix_nil]
    | cons y q =>
      cases r with
      | nil => simp only [xorPrefix_nil]
      | cons z r => simp only [xorPrefix, gfadd_right_comm x y z, ih q r]

theorem xorPrefix_self (p : List Byte) : xorPrefix p p = zeros p.length := by
  induction p with
  | nil => rfl
  | cons x p ih => rw [xorPrefix, gfadd_self, ih, List.length_cons, zeros_succ]

theorem zeros_xorPrefix {n : Nat} {q : List Byte} (h : q.length = n) : xorPrefix (zeros n) q = q := by
  subst h
  induction q with
  | nil => rfl
  | cons y q ih =>
    rw [List.length_cons, zeros_succ, xorPrefix, zero_gfadd, ih]

/-- Zeros before the added coefficients leave the first ones as they are. -/
theorem append_xorPrefix_zeros_append (p q r : List Byte) :
    xorPrefix (p ++ q) (zeros p.length ++ r) = p ++ xorPrefix q r := by
  induction p with
  | nil => rfl
  | cons x p ih =>
    rw [List.length_cons, zeros_succ, List.cons_append, List.cons_append, xorPrefix, gfadd_zero, ih, List.cons_append]

/-! ## The product (R109) -/

theorem length_polymul_cons (x : Byte) (a b : List Byte) : (polymul (x :: a) b).length = a.length + b.length := by
  induction a generalizing x with
  | nil => simp [polymul]
  | cons y a ih => simp [polymul, length_xorPrefix, ih]; omega

/-- Only the product of the leading coefficients lands on the leading place. -/
theorem exists_polymul_cons_cons_eq_cons (x y : Byte) (a b : List Byte) :
    ∃ t : List Byte, polymul (x :: a) (y :: b) = gfmul x y :: t ∧ t.length = a.length + b.length := by
  cases a with
  | nil => exact ⟨b.map (gfmul x), rfl, by simp⟩
  | cons z a =>
    refine ⟨xorPrefix (polymul (z :: a) (y :: b)) (b.map (gfmul x)), ?_, ?_⟩
    · rw [polymul, List.map_cons, xorPrefix, zero_gfadd]
    · rw [length_xorPrefix, length_polymul_cons, List.length_cons, List.length_cons, Nat.add_right_comm, Nat.add_assoc]

/-! ## The value of a polynomial -/

/-- Horner's rule from `acc` on is the value with `acc` as the leading coefficient. -/
theorem foldl_horner (p : List Byte) (x acc : Byte) :
    p.foldl (fun acc c => gfadd (gfmul acc x) c) acc =
      gfadd (gfmul acc (foldedProduct x p.length)) (evalPoly p x) := by
  induction p generalizing acc with
  | nil => exact ((gfadd_zero _).trans (gfmul_one acc)).symm
  | cons c p ih =>
    simp only [evalPoly, List.foldl_cons, List.length_cons, foldedProduct] at ih ⊢
    rw [ih, ih (gfadd (gfmul 0 x) c), zero_gfmul, zero_gfadd, gfadd_gfmul, gfmul_assoc, gfadd_assoc]

theorem evalPoly_nil (x : Byte) : evalPoly [] x = 0 := rfl

theorem evalPoly_cons (c : Byte) (p : List Byte) (x : Byte) :
    evalPoly (c :: p) x = gfadd (gfmul c (foldedProduct x p.length)) (evalPoly p x) := by
  rw [← foldl_horner, evalPoly, List.foldl_cons, zero_gfmul, zero_gfadd]

theorem evalPoly_map_gfmul (c : Byte) (p : List Byte) (x : Byte) :
    evalPoly (p.map (gfmul c)) x = gfmul c (evalPoly p x) := by
  induction p with
  | nil => exact (gfmul_zero c).symm
  | cons y p ih => rw [List.map_cons, evalPoly_cons, evalPoly_cons, ih, List.length_map, gfmul_gfadd, gfmul_assoc]

/-- The coefficients added onto the leading ones count x^k times as much. -/
theorem evalPoly_xorPrefix {p q : List Byte} {k : Nat} (h : p.length = q.length + k) (x : Byte) :
    evalPoly (xorPrefix p q) x = gfadd (evalPoly p x) (gfmul (evalPoly q x) (foldedProduct x k)) := by
  induction p, q using xorPrefix.induct with
  | case1 p => rw [xorPrefix_nil, evalPoly_nil, zero_gfmul, gfadd_zero]
  | case2 y q =>
    simp only [List.length_nil, List.length_cons] at h
    omega
  | case3 a p b q ih =>
    have hlen : p.length = q.length + k := by simp only [List.length_cons] at h; omega
    simp only [xorPrefix, evalPoly_cons, length_xorPrefix, ih hlen, hlen, foldedProduct_add, gfadd_gfmul, gfmul_assoc,
      gfadd_assoc, gfadd_left_comm (gfmul b _)]

theorem evalPoly_polymul (a b : List Byte) (x : Byte) :
    evalPoly (polymul a b) x = gfmul (evalPoly a x) (evalPoly b x) := by
  induction a, b using polymul.induct with
  | case1 b => rw [polymul, evalPoly_nil, zero_gfmul]
  | case2 c b =>
    rw [polymul, evalPoly_map_gfmul, evalPoly_cons, evalPoly_nil, gfadd_zero, List.length_nil, foldedProduct, gfmul_one]
  | case3 c d a b ih =>
    have hlen : (0 :: polymul (d :: a) b).length = (b.map (gfmul c)).length + (d :: a).length := by
      simp only [List.length_cons, List.length_map, length_polymul_cons]; omega
    rw [polymul, evalPoly_xorPrefix hlen, evalPoly_cons, zero_gfmul, zero_gfadd, ih, evalPoly_map_gfmul,
      evalPoly_cons c, gfadd_gfmul, gfmul_right_comm, gfadd_comm]

/-! ## The generator polynomials (R140, R141) -/

/-- gen(n + 1) is a 1 with n + 1 coefficients after it. -/
theorem exists_gen_succ_eq_cons (n : Nat) : ∃ t : List Byte, gen (n + 1) = 1 :: t ∧ t.length = n + 1 := by
  induction n with
  | zero => exact ⟨[1], rfl, rfl⟩
  | succ n ih =>
    obtain ⟨t, ht, hlen⟩ := ih
    obtain ⟨u, hu, hlen'⟩ := exists_polymul_cons_cons_eq_cons 1 1 t [expAt (n + 1)]
    exact ⟨u, by rw [gen, ht, hu, one_gfmul], by rw [hlen', hlen, List.length_singleton]⟩

theorem length_gen {n : Nat} (h : 1 ≤ n) : (gen n).length = n + 1 := by
  obtain ⟨n, rfl⟩ := Nat.exists_eq_add_of_le' h
  obtain ⟨t, ht, hlen⟩ := exists_gen_succ_eq_cons n
  rw [ht, List.length_cons, hlen]

theorem head?_gen {n : Nat} (h : 1 ≤ n) : (gen n).head? = some 1 := by
  obtain ⟨n, rfl⟩ := Nat.exists_eq_add_of_le' h
  obtain ⟨t, ht, -⟩ := exists_gen_succ_eq_cons n
  rw [ht, List.head?_cons]

/-- x + r, the factor that gen takes for the root r. -/
theorem evalPoly_linear (r x : Byte) : evalPoly [1, r] x = gfadd x r := by
  rw [evalPoly, List.foldl_cons, zero_gfmul, zero_gfadd, List.foldl_cons, one_gfmul, List.foldl_nil]

theorem evalPoly_linear_self (r : Byte) : evalPoly [1, r] r = 0 := by
  rw [evalPoly_linear, gfadd_self]

/-- The factors' roots are EXP's entries, which are the powers of 2 below index 255. -/
theorem evalPoly_gen_powerOfTwo {n i : Nat} (hn : n < 255) (hi : i ≤ n) :
    evalPoly (gen (n + 1)) (powerOfTwo i) = 0 := by
  induction n with
  | zero =>
    obtain rfl : i = 0 := Nat.le_zero.mp hi
    exact evalPoly_linear_self 1
  | succ n ih =>
    rw [gen, evalPoly_polymul]
    rcases Nat.le_succ_iff.mp hi with hi | rfl
    · rw [ih (Nat.lt_of_succ_lt hn) hi, zero_gfmul]
    · rw [powerOfTwo_eq_expAt, Nat.mod_eq_of_lt hn, evalPoly_linear_self, gfmul_zero]

/-- Settles O31: gen(n) leads with 1 and takes one factor for each root. -/
theorem generatorIsMonicWithItsRoots : Obligations.GeneratorIsMonicWithItsRoots := by
  refine ⟨fun n hn => ⟨length_gen hn, head?_gen hn⟩, fun n i hn hmax hi => ?_⟩
  have hmax' : n ≤ 30 := hmax
  obtain ⟨n, rfl⟩ := Nat.exists_eq_add_of_le' hn
  exact evalPoly_gen_powerOfTwo (by omega) (Nat.lt_succ_iff.mp hi)

/-! ## The remainder (R110) -/

theorem length_synthDivide (t : List Byte) (n : Nat) (r : List Byte) : (synthDivide t n r).length = r.length - n := by
  induction n generalizing r with
  | zero => rfl
  | succ n ih =>
    cases r with
    | nil => simp [synthDivide]
    | cons c r =>
      rw [synthDivide, ih, List.length_cons, Nat.add_sub_add_right]
      split
      · rfl
      · rw [length_xorPrefix]

/-- What is added behind the first n coefficients passes through n rounds: a round reads only the leading coefficient, and
what it adds commutes with what was added. -/
theorem synthDivide_xorPrefix_zeros_append (t : List Byte) (n : Nat) (r e : List Byte) :
    synthDivide t n (xorPrefix r (zeros n ++ e)) = xorPrefix (synthDivide t n r) e := by
  induction n generalizing r with
  | zero => rfl
  | succ n ih =>
    cases r with
    | nil => simp only [nil_xorPrefix, synthDivide]
    | cons c r =>
      have hround : xorPrefix (c :: r) (zeros (n + 1) ++ e) = c :: xorPrefix r (zeros n ++ e) := by
        rw [zeros_succ, List.cons_append, xorPrefix, gfadd_zero]
      rw [hround, synthDivide, synthDivide, ← ih]
      split
      · rfl
      · rw [xorPrefix_right_comm]

/-- A dividend of at least len(d) − 1 coefficients is divided as it is, one round for each coefficient beyond those. -/
theorem polymod_append {d r : List Byte} (h : r.length = d.length - 1) (p : List Byte) :
    polymod (p ++ r) d = synthDivide d.tail p.length (p ++ r) := by
  have hlong : ¬ (p ++ r).length < d.length - 1 := by rw [List.length_append]; omega
  have hrounds : (p ++ r).length - (d.length - 1) = p.length := by rw [List.length_append]; omega
  simp only [polymod, if_neg hlong, hrounds]

/-- p followed by the remainder of p ++ zeros is a multiple of the divisor: the remainder is added to itself. -/
theorem polymod_append_polymod (p d : List Byte) :
    polymod (p ++ polymod (p ++ zeros (d.length - 1)) d) d = zeros (d.length - 1) := by
  rw [polymod_append (length_zeros _)]
  generalize hr : synthDivide d.tail p.length (p ++ zeros (d.length - 1)) = r
  have hlen : r.length = d.length - 1 := by
    rw [← hr, length_synthDivide, List.length_append, length_zeros, Nat.add_sub_cancel_left]
  calc polymod (p ++ r) d
      = synthDivide d.tail p.length (p ++ r) := polymod_append hlen p
    _ = synthDivide d.tail p.length (xorPrefix (p ++ zeros (d.length - 1)) (zeros p.length ++ r)) := by
        rw [append_xorPrefix_zeros_append, zeros_xorPrefix hlen]
    _ = xorPrefix r r := by rw [synthDivide_xorPrefix_zeros_append, hr]
    _ = zeros (d.length - 1) := by rw [xorPrefix_self, hlen]

/-! ## Codewords (R143, R144) -/

theorem length_gen_sub_one {n : Nat} (h : 1 ≤ n) : (gen n).length - 1 = n := by
  rw [length_gen h, Nat.add_sub_cancel]

theorem length_ecc (data : List Byte) {n : Nat} (h : 1 ≤ n) : (ecc data n).length = n := by
  have hlen : (zeros n).length = (gen n).length - 1 := by rw [length_zeros, length_gen_sub_one h]
  rw [ecc, eccWith, polymod_append hlen, length_synthDivide, List.length_append, length_zeros, Nat.add_sub_cancel_left]

theorem polymod_append_ecc (data : List Byte) {n : Nat} (h : 1 ≤ n) :
    polymod (data ++ ecc data n) (gen n) = zeros n := by
  have hrem := polymod_append_polymod data (gen n)
  rwa [length_gen_sub_one h] at hrem

/-- Settles O32: the codeword is p ++ r of `polymod_append_polymod`, with gen(n) the divisor. -/
theorem codewordIsAMultipleOfTheGenerator : Obligations.CodewordIsAMultipleOfTheGenerator :=
  fun data _ hn _ => ⟨length_ecc data hn, polymod_append_ecc data hn⟩

end Sys2Proof.ReedSolomon
end

section
/-! PROOF. The template as the build's sequence of puts (R161 to R173 of 42_template.md). A cell keeps the colour of the last
put made at it, so a sequence of steps leaves the colour of the last step that touches the cell. For each step, a put of
colour d is made at cell (r, c) exactly when the model's function of the cell answers d. -/

namespace Sys2Proof.TemplateBuild

open Sys2Proof Sys2Proof.Machine

/-! ## The last put at a cell -/

/-- The colour of the last of `puts` made at (r, c), `none` when no put is made there. -/
def lastColour (puts : List Put) (r c : Nat) : Option Bool :=
  puts.reverse.findSome? fun p => if p.r = r ∧ p.c = c then some p.d else none

/-- A cell of a put colour is reserved (R162); a cell without one is light and not reserved. -/
def stampedCell (colour : Option Bool) : Cell := colour.elim ⟨false, false⟩ (⟨·, true⟩)

theorem cellAfter_eq_stampedCell (puts : List Put) (r c : Nat) :
    cellAfter puts r c = stampedCell (lastColour puts r c) := by
  induction puts using List.reverseRecOn with
  | nil => rfl
  | append_singleton puts p ih =>
    rw [cellAfter] at ih
    rw [cellAfter, List.foldl_concat, ih, lastColour, lastColour, List.reverse_concat, List.findSome?_cons]
    by_cases h : p.r = r ∧ p.c = c
    · simp only [if_pos h, stampedCell, Option.elim]
    · simp only [if_neg h]

theorem templateCell_eq_stampedCell (dark : Bool) (v r c : Nat) :
    templateCell dark v r c = stampedCell (stampAt dark v r c) := by
  unfold templateCell
  cases stampAt dark v r c <;> rfl

/-- "A later step's write to a cell replaces an earlier step's" (R161). -/
theorem lastColour_append (earlier later : List Put) (r c : Nat) :
    lastColour (earlier ++ later) r c = (lastColour later r c <|> lastColour earlier r c) := by
  rw [lastColour, List.reverse_append, List.findSome?_append, Option.orElse_eq_orElse, Option.orElse_eq_or]
  rfl

/-- When the puts at a cell are all of one colour, their order does not matter. -/
theorem lastColour_eq_of_mem_iff {puts : List Put} {r c : Nat} {colour : Option Bool}
    (h : ∀ d, (⟨r, c, d⟩ : Put) ∈ puts ↔ colour = some d) : lastColour puts r c = colour := by
  cases hlast : lastColour puts r c with
  | some d =>
    obtain ⟨p, hp, hd⟩ := List.exists_of_findSome?_eq_some hlast
    obtain ⟨⟨rfl, rfl⟩, rfl⟩ : (p.r = r ∧ p.c = c) ∧ p.d = d := by simpa using hd
    exact ((h p.d).mp (List.mem_reverse.mp hp)).symm
  | none =>
    cases hcolour : colour with
    | none => rfl
    | some d =>
      have hmem := List.mem_reverse.mpr ((h d).mpr hcolour)
      have hnone := List.findSome?_eq_none_iff.mp hlast _ hmem
      simp at hnone

/-! ## Searching a list with at most one hit -/

theorem find?_eq_some_iff_of_unique {α : Type} {l : List α} {p : α → Bool} {a : α}
    (hunique : ∀ x ∈ l, ∀ y ∈ l, p x → p y → x = y) : l.find? p = some a ↔ a ∈ l ∧ p a = true := by
  constructor
  · exact fun h => ⟨List.mem_of_find?_eq_some h, List.find?_some h⟩
  · rintro ⟨ha, hpa⟩
    obtain ⟨b, hb⟩ := Option.isSome_iff_exists.mp (List.find?_isSome.mpr ⟨a, ha, hpa⟩)
    rw [hb, hunique b (List.mem_of_find?_eq_some hb) a ha (List.find?_some hb) hpa]

/-! ## Step 1, timing (R163) -/

/-- At (6, 6) the put of the row and that of the column have one colour. -/
theorem mem_timingPuts_iff {w r c : Nat} (hr : r < w) (hc : c < w) (d : Bool) :
    (⟨r, c, d⟩ : Put) ∈ timingPuts w ↔ timingAt r c = some d := by
  have hmem : (⟨r, c, d⟩ : Put) ∈ timingPuts w ↔
      r = 6 ∧ (c % 2 == 0) = d ∨ c = 6 ∧ (r % 2 == 0) = d := by
    simp only [timingPuts, List.mem_flatMap, List.mem_range, List.mem_cons, List.not_mem_nil, or_false, Put.mk.injEq]
    constructor
    · rintro ⟨i, _, ⟨rfl, rfl, rfl⟩ | ⟨rfl, rfl, rfl⟩⟩
      · exact .inl ⟨rfl, rfl⟩
      · exact .inr ⟨rfl, rfl⟩
    · rintro (⟨rfl, rfl⟩ | ⟨rfl, rfl⟩)
      · exact ⟨c, hc, .inl ⟨rfl, rfl, rfl⟩⟩
      · exact ⟨r, hr, .inr ⟨rfl, rfl, rfl⟩⟩
  rw [hmem, timingAt]
  by_cases h6 : r = 6
  · subst h6
    simp +contextual
  · simp [h6]

/-! ## Step 2a, finders (R164) -/

/-- Rings are counted from row and column 3 of the square. -/
theorem dist_three (i : Nat) : Machine.dist i 3 = ((i : Int) - 3).natAbs := by
  unfold Machine.dist; omega

/-- Two finders have no cell in common. -/
theorem finderOrigins_unique {w r c : Nat} (hw : 21 ≤ w) : ∀ o ∈ finderOrigins w, ∀ o' ∈ finderOrigins w,
    inFinder o r c → inFinder o' r c → o = o' := by
  simp only [finderOrigins, inFinder, List.forall_mem_cons, decide_eq_true_eq]
  simp only [List.not_mem_nil, false_implies, implies_true, true_and, and_true, Prod.mk.injEq]
  omega

theorem finderAt_eq_some_iff {w r c : Nat} (hw : 21 ≤ w) {d : Bool} :
    finderAt w r c = some d ↔ ∃ o ∈ finderOrigins w, inFinder o r c = true ∧
      (max (Machine.dist (r - o.1) 3) (Machine.dist (c - o.2) 3) != 2) = d := by
  have hfind (o : Coord) := find?_eq_some_iff_of_unique (a := o) (finderOrigins_unique (r := r) (c := c) hw)
  unfold finderAt
  constructor
  · intro h
    split at h
    next o ho =>
      obtain ⟨hmem, hin⟩ := (hfind o).mp ho
      exact ⟨o, hmem, hin, Option.some.inj h⟩
    next => cases h
  · rintro ⟨o, hmem, hin, rfl⟩
    rw [(hfind o).mpr ⟨hmem, hin⟩]

theorem mem_finderPuts_iff {w r c : Nat} (hw : 21 ≤ w) (d : Bool) :
    (⟨r, c, d⟩ : Put) ∈ finderPuts w ↔ finderAt w r c = some d := by
  rw [finderAt_eq_some_iff hw]
  change (⟨r, c, d⟩ : Put) ∈ (finderOrigins w).flatMap _ ↔ _
  simp only [List.mem_flatMap, List.mem_map, List.mem_range, Put.mk.injEq, inFinder, decide_eq_true_eq, dist_three]
  refine exists_congr fun o => and_congr_right' ?_
  constructor
  · rintro ⟨i, hi, j, hj, rfl, rfl, rfl⟩
    exact ⟨by omega, by rw [Nat.add_sub_cancel_left, Nat.add_sub_cancel_left]⟩
  · rintro ⟨hin, rfl⟩
    exact ⟨r - o.1, by omega, c - o.2, by omega, by omega, by omega, rfl⟩

/-! ## Step 2b, separators (R165) -/

theorem separatorAt_eq_some_iff {w r c : Nat} {d : Bool} :
    separatorAt w r c = some d ↔ d = false ∧ ∃ o ∈ finderOrigins w, inFinderBox o r c = true ∧ inFinder o r c = false := by
  simp only [separatorAt, Option.ite_none_right_eq_some, Option.some.injEq, List.any_eq_true, Bool.and_eq_true,
    Bool.not_eq_true', and_comm, eq_comm (a := d)]

/-- The offsets i of the loop, as the puts write them: numbers below 9 made integers. -/
theorem mem_range_nine_cast_iff {x : Int} :
    x ∈ (do let i ← List.range 9; pure (i : Int)) ↔ 0 ≤ x ∧ x < 9 := by
  simp only [List.bind_eq_flatMap, List.pure_def, List.mem_flatMap, List.mem_range, List.mem_singleton]
  constructor
  · rintro ⟨i, hi, rfl⟩
    omega
  · exact fun hx => ⟨x.toNat, by omega, by omega⟩

theorem mem_separatorPuts_iff {w r c : Nat} (hw : 21 ≤ w) (hr : r < w) (hc : c < w) (d : Bool) :
    (⟨r, c, d⟩ : Put) ∈ separatorPuts w ↔ separatorAt w r c = some d := by
  have horigins : [((0 : Int), (0 : Int)), (0, (w : Int) - 7), ((w : Int) - 7, 0)] =
      (finderOrigins w).map fun o => ((o.1 : Int), (o.2 : Int)) := by
    simp [finderOrigins, Nat.cast_sub (show 7 ≤ w by omega)]
  rw [separatorAt_eq_some_iff, separatorPuts, horigins]
  simp only [List.mem_flatMap, List.mem_map, exists_exists_and_eq_and, List.mem_filterMap, mem_range_nine_cast_iff,
    Option.ite_none_right_eq_some, Option.some.injEq, Put.mk.injEq, inFinder, inFinderBox, decide_eq_true_eq,
    decide_eq_false_iff_not]
  constructor
  · rintro ⟨o, ho, i, hi, j, hj, hin, rfl, rfl, rfl⟩
    exact ⟨rfl, o, ho, by omega, by omega⟩
  · rintro ⟨rfl, o, ho, hbox, hout⟩
    exact ⟨o, ho, (r : Int) + 1 - o.1, by omega, (c : Int) + 1 - o.2, by omega, by omega, by omega, by omega, rfl⟩

/-! ## Steps 2c and 2d, format placeholders and the dark module (R166, R167) -/

theorem formatCellsA_eq_map : formatCellsA = (List.range 15).map formatCellA := by decide

theorem formatCellsB_eq_map {w : Nat} (hw : 21 ≤ w) : formatCellsB w = (List.range 15).map (formatCellB w) := by
  simp [formatCellsB, List.range, List.range.loop, formatCellB]
  omega

theorem mem_placeholderPuts_iff {w r c : Nat} (hw : 21 ≤ w) (d : Bool) :
    (⟨r, c, d⟩ : Put) ∈ placeholderPuts w ↔ placeholderAt w r c = some d := by
  have hat : placeholderAt w r c = if (formatBitAt w r c).isSome then some false else none := by
    unfold placeholderAt
    cases formatBitAt w r c <;> rfl
  rw [hat, placeholderPuts, formatCellsA_eq_map, formatCellsB_eq_map hw]
  simp only [formatBitAt, Option.ite_none_right_eq_some, List.find?_isSome, List.map_append, List.map_map, List.mem_append,
    List.mem_map, Function.comp_apply, Put.mk.injEq, Bool.or_eq_true, beq_iff_eq, Prod.ext_iff, Option.some.injEq]
  constructor
  · rintro (⟨i, hi, hr, hc, hd⟩ | ⟨i, hi, hr, hc, hd⟩)
    · exact ⟨⟨i, hi, .inl ⟨hr, hc⟩⟩, hd⟩
    · exact ⟨⟨i, hi, .inr ⟨hr, hc⟩⟩, hd⟩
  · rintro ⟨⟨i, hi, ⟨hr, hc⟩ | ⟨hr, hc⟩⟩, hd⟩
    · exact .inl ⟨i, hi, hr, hc, hd⟩
    · exact .inr ⟨i, hi, hr, hc, hd⟩

theorem mem_darkModulePuts_iff {w r c : Nat} (d : Bool) :
    (⟨r, c, d⟩ : Put) ∈ darkModulePuts w ↔ darkModuleAt Config.darkModuleAtTemplate w r c = some d := by
  simp only [darkModulePuts, darkModuleAt, darkModuleCell, List.mem_singleton, Put.mk.injEq,
    Option.ite_none_right_eq_some, Option.some.injEq, Prod.mk.injEq, and_assoc, eq_comm (a := d)]

/-! ## Step 3, alignment (R168, R169) -/

theorem lookup_annexE : ∀ v ∈ List.range' 1 40, annexE.lookup v = some (alignmentPositions v) := by decide

/-- Centres lie two cells or more inside the matrix, and their 5 × 5 squares do not overlap. -/
theorem alignmentPositions_apart : ∀ v ∈ List.range' 1 40, ∀ p ∈ alignmentPositions v,
    2 ≤ p ∧ ∀ q ∈ alignmentPositions v, p < q → p + 5 ≤ q := by decide

theorem nearPosition_eq_some_iff {v x p : Nat} (hv : v ∈ List.range' 1 40) :
    nearPosition (alignmentPositions v) x = some p ↔ p ∈ alignmentPositions v ∧ Machine.dist x p ≤ 2 := by
  have hunique : ∀ p ∈ alignmentPositions v, ∀ q ∈ alignmentPositions v,
      decide (Machine.dist x p ≤ 2) = true → decide (Machine.dist x q ≤ 2) = true → p = q := by
    intro p hp q hq hxp hxq
    have hpq := (alignmentPositions_apart v hv p hp).2 q hq
    have hqp := (alignmentPositions_apart v hv q hq).2 p hp
    have hxp := of_decide_eq_true hxp
    have hxq := of_decide_eq_true hxq
    unfold Machine.dist at hxp hxq
    omega
  rw [nearPosition, find?_eq_some_iff_of_unique hunique, decide_eq_true_eq]

theorem alignmentAt_eq_some_iff {v r c : Nat} (hv : v ∈ List.range' 1 40) {d : Bool} :
    alignmentAt v r c = some d ↔ ∃ pr ∈ alignmentPositions v, ∃ pc ∈ alignmentPositions v,
      alignmentExcluded (alignmentPositions v) pr pc = false ∧ Machine.dist r pr ≤ 2 ∧ Machine.dist c pc ≤ 2 ∧
      (max (Machine.dist r pr) (Machine.dist c pc) != 1) = d := by
  dsimp only [alignmentAt]
  constructor
  · intro h
    split at h
    next pr pc hpr hpc =>
      obtain ⟨hr, hdr⟩ := (nearPosition_eq_some_iff hv).mp hpr
      obtain ⟨hc, hdc⟩ := (nearPosition_eq_some_iff hv).mp hpc
      obtain ⟨hin, hd⟩ := Option.ite_none_left_eq_some.mp h
      exact ⟨pr, hr, pc, hc, Bool.not_eq_true _ ▸ hin, hdr, hdc, Option.some.inj hd⟩
    next => cases h
  · rintro ⟨pr, hr, pc, hc, hin, hdr, hdc, rfl⟩
    rw [(nearPosition_eq_some_iff hv).mpr ⟨hr, hdr⟩, (nearPosition_eq_some_iff hv).mpr ⟨hc, hdc⟩]
    simp only [hin, Bool.false_eq_true, if_false]

theorem alignmentExcluded_eq_false_iff {ps : List Nat} {pr pc : Nat} :
    alignmentExcluded ps pr pc = false ↔ (pr, pc) ∉ [(6, 6), (6, ps.getLast?.getD 6), (ps.getLast?.getD 6, 6)] := by
  simp [alignmentExcluded, and_assoc]

/-- The puts count offsets from 0, so offset i lies at i − 2 from the centre `p`. -/
theorem dist_offset {p : Nat} (hp : 2 ≤ p) (i : Nat) : Machine.dist (p + i - 2) p = ((i : Int) - 2).natAbs := by
  unfold Machine.dist; omega

theorem exists_offset_of_dist_le {x p : Nat} (h : Machine.dist x p ≤ 2) : ∃ i < 5, p + i - 2 = x := by
  unfold Machine.dist at h
  exact ⟨x + 2 - p, by omega, by omega⟩

theorem mem_alignmentPuts_iff {v r c : Nat} (hv : v ∈ List.range' 1 40) (d : Bool) :
    (⟨r, c, d⟩ : Put) ∈ alignmentPuts v ↔ alignmentAt v r c = some d := by
  rw [alignmentAt_eq_some_iff hv, alignmentPuts, lookup_annexE v hv, Option.getD_some]
  simp only [List.mem_flatMap]
  refine exists_congr fun pr => and_congr_right fun hr => exists_congr fun pc => and_congr_right fun hc => ?_
  have hpr := (alignmentPositions_apart v hv pr hr).1
  have hpc := (alignmentPositions_apart v hv pc hc).1
  rw [alignmentExcluded_eq_false_iff]
  split
  next hex => simp only [hex, not_true_eq_false, false_and, List.not_mem_nil]
  next hin =>
    simp only [hin, not_false_eq_true, true_and, List.mem_flatMap, List.mem_map, List.mem_range, Put.mk.injEq]
    constructor
    · rintro ⟨i, hi, j, hj, rfl, rfl, rfl⟩
      rw [dist_offset hpr, dist_offset hpc]
      exact ⟨by omega, by omega, rfl⟩
    · rintro ⟨hdr, hdc, rfl⟩
      obtain ⟨i, hi, rfl⟩ := exists_offset_of_dist_le hdr
      obtain ⟨j, hj, rfl⟩ := exists_offset_of_dist_le hdc
      exact ⟨i, hi, j, hj, rfl, rfl, by rw [dist_offset hpr, dist_offset hpc]⟩

/-! ## Step 4, version information (R170) -/

/-- Bit i of the word lies at row i div 3, column i mod 3 of the 6 × 3 block whose first column is `k`. -/
theorem exists_bit_at_iff {word : BitVec 18} {k r c : Nat} {d : Bool} :
    (∃ i < 18, r = i / 3 ∧ c = k + i % 3 ∧ d = word.getLsbD i) ↔
      (r ≤ 5 ∧ k ≤ c ∧ c ≤ k + 2) ∧ word.getLsbD (3 * r + (c - k)) = d := by
  constructor
  · rintro ⟨i, hi, rfl, rfl, rfl⟩
    rw [Nat.add_sub_cancel_left, Nat.div_add_mod]
    exact ⟨by omega, rfl⟩
  · rintro ⟨hin, rfl⟩
    exact ⟨3 * r + (c - k), by omega, by omega, by omega, rfl⟩

/-- From version 7 on the block's rows 0 to 5 lie above its transpose's. -/
theorem versionAt_eq_some_iff {v k r c : Nat} (hv : 7 ≤ v) (hk : symbolWidth v = k + 11) {d : Bool} :
    versionAt v r c = some d ↔
      (r ≤ 5 ∧ k ≤ c ∧ c ≤ k + 2) ∧ (versionWord v).getLsbD (3 * r + (c - k)) = d ∨
      (c ≤ 5 ∧ k ≤ r ∧ r ≤ k + 2) ∧ (versionWord v).getLsbD (3 * c + (r - k)) = d := by
  have hk34 : 34 ≤ k := by unfold symbolWidth at hk; omega
  have hfirst : k + 11 - 11 = k := Nat.add_sub_cancel k 11
  have hlast : k + 11 - 9 = k + 2 := rfl
  simp only [versionAt, hk, hfirst, hlast, if_neg (Nat.not_lt.mpr hv)]
  by_cases hblock : r ≤ 5 ∧ k ≤ c ∧ c ≤ k + 2
  · have hnot : ¬ (c ≤ 5 ∧ k ≤ r ∧ r ≤ k + 2) := by omega
    simp only [hblock, hnot, and_self, if_true, Option.some.injEq, true_and, false_and, or_false]
  · simp only [hblock, if_false, Option.ite_none_right_eq_some, Option.some.injEq, false_and, false_or]

theorem mem_versionPuts_iff {v r c : Nat} (d : Bool) :
    (⟨r, c, d⟩ : Put) ∈ versionPuts v ↔ versionAt v r c = some d := by
  by_cases hv : 7 ≤ v
  · have hk : symbolWidth v = symbolWidth v - 11 + 11 := by unfold symbolWidth; omega
    rw [versionAt_eq_some_iff hv hk, ← exists_bit_at_iff, ← exists_bit_at_iff]
    simp only [versionPuts, if_pos hv, List.mem_flatMap, List.mem_range, List.mem_cons, List.not_mem_nil, or_false,
      Put.mk.injEq, ← exists_or, ← and_or_left]
    exact exists_congr fun i => and_congr_right' (or_congr_right and_left_comm)
  · simp only [versionPuts, versionAt, if_neg hv, if_pos (Nat.not_le.mp hv), List.not_mem_nil, reduceCtorEq]

/-! ## The build -/

theorem symbolWidth_ge (v : Nat) : 21 ≤ symbolWidth v := Nat.le_add_right 21 _

theorem cell_template_eq_cellAfter {v r c : Nat} (hv : v ∈ List.range' 1 40) (hr : r < symbolWidth v)
    (hc : c < symbolWidth v) : (template v).cell r c = cellAfter (stampSequence v) r c := by
  have hw := symbolWidth_ge v
  rw [template, templateWith, Matrix.cell_tabulate hr hc, templateCell_eq_stampedCell, cellAfter_eq_stampedCell]
  simp only [stampSequence, lastColour_append, stampAt,
    lastColour_eq_of_mem_iff (mem_timingPuts_iff hr hc), lastColour_eq_of_mem_iff (mem_finderPuts_iff hw),
    lastColour_eq_of_mem_iff (mem_separatorPuts_iff hw hr hc), lastColour_eq_of_mem_iff (mem_placeholderPuts_iff hw),
    lastColour_eq_of_mem_iff mem_darkModulePuts_iff, lastColour_eq_of_mem_iff (mem_alignmentPuts_iff hv),
    lastColour_eq_of_mem_iff mem_versionPuts_iff]

theorem dataModules_template_one : (template 1).dataModules = 208 := by decide +kernel

theorem dataModules_template_two : (template 2).dataModules = 359 := by decide +kernel

theorem dataModules_template_seven : (template 7).dataModules = 1568 := by decide +kernel

/-- Settles O35: the steps agree put by put; the position lists and the three counts are evaluated. -/
theorem templateIsTheStampSequence : Obligations.TemplateIsTheStampSequence :=
  ⟨fun v _ _ h1 h40 hr hc => cell_template_eq_cellAfter (List.mem_range'_1.mpr ⟨h1, by omega⟩) hr hc, by decide, by decide,
    dataModules_template_one, dataModules_template_two, dataModules_template_seven⟩

end Sys2Proof.TemplateBuild
end

section
/-! PROOF. The zigzag order (R190, R191 of 43_placement.md). Pair by pair, the loop emits the non-reserved part of a walk that
does not depend on the matrix. The walk has each coordinate outside column 6 once, and a template reserves column 6, so the
order is a permutation of the template's data modules. -/

namespace Sys2Proof.ZigzagOrder

open Sys2Proof Sys2Proof.Machine

/-! ## The loop, pair by pair -/

/-- The right column of column pair `pair`, column 6 skipped (R190). -/
def rightColumn (w pair : Nat) : Nat := if 6 < w - 1 - 2 * pair then w - 1 - 2 * pair else w - 2 - 2 * pair

/-- The loop's `right` as it enters a pair, before column 6 is skipped. -/
def enteringColumn (w pair : Nat) : Nat := if 6 ≤ w - 1 - 2 * pair then w - 1 - 2 * pair else w - 2 - 2 * pair

/-- The row visited at place `i` of a pair: even pairs go up, odd ones down. -/
def rowAt (w pair i : Nat) : Nat := if pair % 2 = 0 then w - 1 - i else i

theorem rowAt_lt {w i : Nat} (pair : Nat) (hi : i < w) : rowAt w pair i < w := by
  unfold rowAt; split_ifs <;> omega

theorem rowAt_rowAt {w i : Nat} (pair : Nat) (hi : i < w) : rowAt w pair (rowAt w pair i) = i := by
  unfold rowAt; split_ifs <;> omega

theorem rows_eq_map_rowAt (w pair : Nat) :
    (if decide (pair % 2 = 0) then (List.range w).reverse else List.range w) = (List.range w).map (rowAt w pair) := by
  by_cases hup : pair % 2 = 0
  · have hrow : rowAt w pair = fun i => w - 1 - i := by funext i; exact if_pos hup
    simp [hrow, hup, List.range_eq_range', List.reverse_range']
  · have hrow : rowAt w pair = id := by funext i; exact if_neg hup
    simp [hrow, hup]

/-- The loop from pair `pair` on, with `pairs` column pairs to go in a matrix of width 2n + 1. -/
theorem zigzagFrom_eq_flatMap (m : Matrix) {w n : Nat} (hw : w = 2 * n + 1) {pairs pair fuel : Nat}
    (htotal : pair + pairs = n) (hfuel : pairs ≤ fuel) :
    zigzagFrom m w fuel (enteringColumn w pair) (decide (pair % 2 = 0)) =
      (List.range' pair pairs).flatMap fun p => zigzagPair m (rightColumn w p) ((List.range w).map (rowAt w p)) := by
  induction pairs generalizing pair fuel with
  | zero =>
    have hdone : enteringColumn w pair < 1 := by unfold enteringColumn; split_ifs <;> omega
    cases fuel with
    | zero => rfl
    | succ fuel => rw [zigzagFrom, if_pos hdone]; rfl
  | succ pairs ih =>
    obtain ⟨fuel, rfl⟩ : ∃ k, fuel = k + 1 := ⟨fuel - 1, by omega⟩
    have hmore : ¬ enteringColumn w pair < 1 := by unfold enteringColumn; split_ifs <;> omega
    have hskip : (if enteringColumn w pair = 6 then 5 else enteringColumn w pair) = rightColumn w pair := by
      unfold enteringColumn rightColumn; split_ifs <;> omega
    have hnext : rightColumn w pair - 2 = enteringColumn w (pair + 1) := by
      unfold enteringColumn rightColumn; split_ifs <;> omega
    have hturn : (!decide (pair % 2 = 0)) = decide ((pair + 1) % 2 = 0) := by
      rw [← decide_not]; exact decide_eq_decide.mpr (by omega)
    rw [zigzagFrom, if_neg hmore, List.range'_succ, List.flatMap_cons]
    simp only [hskip, hnext, hturn, rows_eq_map_rowAt]
    rw [ih (by omega) (by omega)]

/-- Every coordinate of column pair `pair`, in the order of the visit. -/
def pairWalk (w pair : Nat) : List Coord :=
  (List.range w).flatMap fun i => [(rowAt w pair i, rightColumn w pair), (rowAt w pair i, rightColumn w pair - 1)]

/-- The zigzag order's coordinates, reserved or not. -/
def walk (w : Nat) : List Coord := (List.range ((w - 1) / 2)).flatMap (pairWalk w)

theorem exists_symbolWidth_eq (v : Nat) : ∃ n, 3 ≤ n ∧ symbolWidth v = 2 * n + 1 :=
  ⟨10 + 2 * (v - 1), by omega, by unfold symbolWidth; omega⟩

theorem zigzag_eq_filter_walk (m : Matrix) (v : Nat) :
    zigzag m (symbolWidth v) = (walk (symbolWidth v)).filter fun rc => !(m.cell rc.1 rc.2).rsv := by
  obtain ⟨n, hn, hw⟩ := exists_symbolWidth_eq v
  generalize symbolWidth v = w at hw
  have hfirst : w - 1 = enteringColumn w 0 := by unfold enteringColumn; split_ifs <;> omega
  have hpairs : (w - 1) / 2 = n := by omega
  have hloop := zigzagFrom_eq_flatMap m hw (pair := 0) (fuel := w) (Nat.zero_add n) (by omega)
  rw [zigzag, hfirst, walk, hpairs, List.filter_flatMap, List.range_eq_range']
  refine hloop.trans (List.flatMap_congr fun p _ => ?_)
  rw [zigzagPair, pairWalk, List.filter_flatMap, List.flatMap_map]

/-! ## The walk visits each coordinate outside column 6 once -/

theorem mem_pairWalk_iff {w pair r c : Nat} :
    (r, c) ∈ pairWalk w pair ↔ r < w ∧ (c = rightColumn w pair ∨ c = rightColumn w pair - 1) := by
  simp only [pairWalk, List.mem_flatMap, List.mem_range, List.mem_cons, List.not_mem_nil, or_false, Prod.mk.injEq,
    ← and_or_left]
  constructor
  · rintro ⟨i, hi, rfl, hc⟩
    exact ⟨rowAt_lt pair hi, hc⟩
  · rintro ⟨hr, hc⟩
    exact ⟨rowAt w pair r, rowAt_lt pair hr, (rowAt_rowAt pair hr).symm, hc⟩

/-- The column pairs are (2n, 2n − 1) to (8, 7), then (5, 4) to (1, 0). -/
theorem exists_pair_of_column_iff {w n c : Nat} (hw : w = 2 * n + 1) (hn : 3 ≤ n) :
    (∃ pair < (w - 1) / 2, c = rightColumn w pair ∨ c = rightColumn w pair - 1) ↔ c < w ∧ c ≠ 6 := by
  constructor
  · rintro ⟨pair, hpair, hc⟩
    unfold rightColumn at hc
    split at hc <;> omega
  · rintro ⟨hc, h6⟩
    refine ⟨if 6 < c then (w - 1 - c) / 2 else (w - 2 - c) / 2, ?_⟩
    unfold rightColumn
    split_ifs <;> omega

theorem mem_walk_iff {w n r c : Nat} (hw : w = 2 * n + 1) (hn : 3 ≤ n) :
    (r, c) ∈ walk w ↔ r < w ∧ c < w ∧ c ≠ 6 := by
  rw [← exists_pair_of_column_iff hw hn]
  simp only [walk, List.mem_flatMap, List.mem_range, mem_pairWalk_iff, and_left_comm, exists_and_left]

theorem nodup_pairWalk {w pair : Nat} (hpair : pair < (w - 1) / 2) : (pairWalk w pair).Nodup := by
  have hcolumns : rightColumn w pair ≠ rightColumn w pair - 1 := by unfold rightColumn; split_ifs <;> omega
  refine List.nodup_flatMap.mpr ⟨fun i _ => ?_, List.pairwise_lt_range.imp_of_mem fun {i j} hi hj hij => ?_⟩
  · simpa using hcolumns
  · have hrow : rowAt w pair i ≠ rowAt w pair j := by
      intro hrows
      rw [← rowAt_rowAt pair (List.mem_range.mp hi), hrows, rowAt_rowAt pair (List.mem_range.mp hj)] at hij
      exact hij.ne rfl
    simp [Function.onFun, List.Disjoint, hrow]

theorem nodup_walk (w : Nat) : (walk w).Nodup := by
  refine List.nodup_flatMap.mpr ⟨fun p hp => nodup_pairWalk (List.mem_range.mp hp),
    List.pairwise_lt_range.imp_of_mem fun {p q} hp hq hpq => ?_⟩
  have hq := List.mem_range.mp hq
  have hapart : rightColumn w q + 2 ≤ rightColumn w p := by unfold rightColumn; split_ifs <;> omega
  rintro ⟨r, c⟩ hcp hcq
  obtain ⟨-, hcp⟩ := mem_pairWalk_iff.mp hcp
  obtain ⟨-, hcq⟩ := mem_pairWalk_iff.mp hcq
  omega

/-! ## The zigzag order of a template -/

/-- A data module of a template is no timing module, no format module and not the dark module. -/
theorem steps_none_of_stampAt_none {dark : Bool} {v r c : Nat} (h : stampAt dark v r c = none) :
    timingAt r c = none ∧ placeholderAt (symbolWidth v) r c = none ∧ darkModuleAt dark (symbolWidth v) r c = none := by
  simp only [stampAt, Option.orElse_eq_orElse, Option.orElse_eq_or, Option.or_eq_none_iff] at h
  obtain ⟨-, -, hdark, hplaceholder, -, -, htiming⟩ := h
  exact ⟨htiming, hplaceholder, hdark⟩

theorem rsv_template_eq_false_iff {v r c : Nat} (hr : r < symbolWidth v) (hc : c < symbolWidth v) :
    ((template v).cell r c).rsv = false ↔ stampAt Config.darkModuleAtTemplate v r c = none := by
  rw [template, templateWith, Matrix.cell_tabulate hr hc, templateCell]
  cases stampAt Config.darkModuleAtTemplate v r c <;> simp

/-- Column 6 is timing (R163). -/
theorem ne_six_of_stampAt_none {dark : Bool} {v r c : Nat} (h : stampAt dark v r c = none) : c ≠ 6 := by
  rintro rfl
  obtain ⟨htiming, -⟩ := steps_none_of_stampAt_none h
  unfold timingAt at htiming
  split at htiming <;> simp at htiming

theorem mem_zigzag_template_iff {v r c : Nat} :
    (r, c) ∈ zigzag (template v) (symbolWidth v) ↔
      r < symbolWidth v ∧ c < symbolWidth v ∧ ((template v).cell r c).rsv = false := by
  obtain ⟨n, hn, hw⟩ := exists_symbolWidth_eq v
  rw [zigzag_eq_filter_walk, List.mem_filter, mem_walk_iff hw hn, Bool.not_eq_true', and_assoc, and_assoc]
  refine and_congr_right fun hr => and_congr_right fun hc => and_iff_right_of_imp fun hrsv => ?_
  exact ne_six_of_stampAt_none ((rsv_template_eq_false_iff hr hc).mp hrsv)

theorem six_notMem_zigzag_template (v r : Nat) : (r, 6) ∉ zigzag (template v) (symbolWidth v) := by
  intro hmem
  obtain ⟨hr, hc, hrsv⟩ := mem_zigzag_template_iff.mp hmem
  exact ne_six_of_stampAt_none ((rsv_template_eq_false_iff hr hc).mp hrsv) rfl

theorem nodup_zigzag (m : Matrix) (v : Nat) : (zigzag m (symbolWidth v)).Nodup := by
  rw [zigzag_eq_filter_walk]
  exact (nodup_walk _).filter _

/-- The data modules of a tabulated matrix, counted over all its coordinates. -/
theorem dataModules_tabulate (w : Nat) (f : Nat → Nat → Cell) :
    (Matrix.tabulate w f).dataModules =
      ((List.range w ×ˢ List.range w).filter fun rc => !(f rc.1 rc.2).rsv).length := by
  rw [← List.countP_eq_length_filter]
  simp only [Matrix.dataModules, Matrix.tabulate, List.map_map]
  rw [show List.range w ×ˢ List.range w = (List.range w).flatMap fun r => (List.range w).map (r, ·) from rfl,
    List.countP_flatMap]
  simp [Function.comp_def, List.countP_map]

theorem length_zigzag_template (v : Nat) :
    (zigzag (template v) (symbolWidth v)).length = (template v).dataModules := by
  have hcell : ∀ rc ∈ List.range (symbolWidth v) ×ˢ List.range (symbolWidth v),
      (template v).cell rc.1 rc.2 = templateCell Config.darkModuleAtTemplate v rc.1 rc.2 := by
    rintro ⟨r, c⟩ hrc
    obtain ⟨hr, hc⟩ := List.mem_product.mp hrc
    exact Matrix.cell_tabulate (List.mem_range.mp hr) (List.mem_range.mp hc)
  conv_rhs => rw [template, templateWith, dataModules_tabulate]
  rw [← List.filter_congr fun rc hrc => congrArg (fun x : Cell => !x.rsv) (hcell rc hrc)]
  refine ((List.perm_ext_iff_of_nodup (nodup_zigzag _ v) ((List.nodup_range.product List.nodup_range).filter _)).mpr
    fun rc => ?_).length_eq
  rw [mem_zigzag_template_iff, List.mem_filter, List.mem_product, List.mem_range, List.mem_range, Bool.not_eq_true',
    and_assoc]

/-- Settles O38: the loop emits the non-reserved part of a walk over all columns but 6; version 1's ends are evaluated. -/
theorem zigzagVisitsEachDataModuleOnce : Obligations.ZigzagVisitsEachDataModuleOnce := by
  refine ⟨fun m v _ _ => ?_, fun v _ _ => ⟨nodup_zigzag _ v, length_zigzag_template v, six_notMem_zigzag_template v,
    fun _ _ => mem_zigzag_template_iff⟩, by decide +kernel, by decide +kernel⟩
  refine (zigzag_eq_filter_walk m v).trans ?_
  rw [walk, List.filter_flatMap]
  exact List.flatMap_congr fun p _ => List.filter_flatMap

end Sys2Proof.ZigzagOrder
end

section
/-! PROOF. Placed codewords read back (R192, R193, R196 of 43_placement.md). The zigzag order has no repetition, so the bit that
PLACE gives a module is not written over. The modules of the order are not reserved, so a mask command changes them by the
mask predicate alone: the format write and the dark module lie on reserved cells. -/

namespace Sys2Proof.PlacementRoundTrip

open Sys2Proof Sys2Proof.Machine Sys2Proof.ZigzagOrder

/-! ## Square matrices -/

theorem square_tabulate (w : Nat) (f : Nat → Nat → Cell) : (Matrix.tabulate w f).Square w := by
  simp [Matrix.Square, Matrix.tabulate]

theorem square_mapCells {m : Matrix} {w : Nat} (h : m.Square w) (f : Nat → Nat → Cell → Cell) :
    (m.mapCells f).Square w := by
  obtain ⟨hrows, hcols⟩ := h
  refine ⟨(m.length_mapCells f).trans hrows, fun row hrow => ?_⟩
  obtain ⟨r, hr, rfl⟩ := List.mem_mapIdx.mp hrow
  rw [List.length_mapIdx, hcols _ (List.getElem_mem hr)]

theorem square_setDark {m : Matrix} {w : Nat} (h : m.Square w) (r c : Nat) (d : Bool) : (m.setDark r c d).Square w := by
  obtain ⟨hrows, hcols⟩ := h
  refine ⟨(List.length_modify _ _ _).trans hrows, fun row hrow => ?_⟩
  obtain ⟨i, hi, rfl⟩ := List.mem_iff_getElem.mp hrow
  have hi' : i < m.length := by simpa [Matrix.setDark] using hi
  have hlen := hcols _ (List.getElem_mem hi')
  simp only [Matrix.setDark, List.getElem_modify]
  split <;> simpa using hlen

section
variable {m : Matrix} {w r c : Nat} (h : m.Square w) (hr : r < w) (hc : c < w)
include h hr hc

theorem cell_mapCells_of_square (f : Nat → Nat → Cell → Cell) : (m.mapCells f).cell r c = f r c (m.cell r c) := by
  obtain ⟨hrows, hcols⟩ := h
  have hr' : r < m.length := hrows ▸ hr
  have hc' : c < m[r].length := (hcols _ (List.getElem_mem hr')).symm ▸ hc
  have hrow := List.getElem?_eq_getElem hr'
  have hcell := List.getElem?_eq_getElem hc'
  rw [Matrix.cell_mapCells hrow hcell]
  simp [Matrix.cell, hrow, hcell]

theorem cell_setDark_self (d : Bool) : (m.setDark r c d).cell r c = { m.cell r c with dark := d } := by
  obtain ⟨hrows, hcols⟩ := h
  have hr' : r < m.length := hrows ▸ hr
  have hc' : c < (m[r]?.getD []).length := by
    rw [List.getElem?_eq_getElem hr', Option.getD_some, hcols _ (List.getElem_mem hr')]
    exact hc
  rw [Matrix.cell_setDark, if_pos ⟨rfl, hr', hc'⟩]

end

/-! ## Placing bits along an order -/

theorem placeBits_cons (rc : Coord) (z : List Coord) (b : Bool) (bits : List Bool) (m : Matrix) :
    placeBits (rc :: z) (b :: bits) m = placeBits z bits (m.setDark rc.1 rc.2 b) := rfl

theorem placeBits_nil_right (z : List Coord) (m : Matrix) : placeBits z [] m = m := by
  rw [placeBits, List.zip_nil_right, List.foldl_nil]

theorem square_placeBits {m : Matrix} {w : Nat} (h : m.Square w) (z : List Coord) (bits : List Bool) :
    (placeBits z bits m).Square w :=
  List.foldlRecOn (motive := fun m' : Matrix => m'.Square w) _ _ h
    fun _ hm x _ => square_setDark hm x.1.1 x.1.2 x.2

theorem cell_placeBits_rsv (z : List Coord) (bits : List Bool) (m : Matrix) (r c : Nat) :
    ((placeBits z bits m).cell r c).rsv = (m.cell r c).rsv :=
  List.foldlRecOn (motive := fun m' : Matrix => (m'.cell r c).rsv = (m.cell r c).rsv) _ _ rfl
    fun m' hm x _ => (m'.cell_setDark_rsv x.1.1 x.1.2 r c x.2).trans hm

/-- Cells that get no bit keep their colour (R194). -/
theorem cell_placeBits_of_notMem {z : List Coord} {bits : List Bool} {r c : Nat} (h : (r, c) ∉ z.take bits.length)
    (m : Matrix) : (placeBits z bits m).cell r c = m.cell r c := by
  induction z generalizing bits m with
  | nil => rfl
  | cons rc z ih =>
    cases bits with
    | nil => rw [placeBits_nil_right]
    | cons b bits =>
      obtain ⟨hne, hrest⟩ : (r, c) ≠ rc ∧ (r, c) ∉ z.take bits.length := by simpa using h
      rw [placeBits_cons, ih hrest, Matrix.cell_setDark, if_neg fun hset => hne hset.1]

/-- A cell visited once holds the bit of its place in the order (R193). -/
theorem dark_cell_placeBits {z : List Coord} {bits : List Bool} {m : Matrix} {w n : Nat} {rc : Coord} {b : Bool}
    (hm : m.Square w) (hz : z.Nodup) (hin : ∀ rc ∈ z, rc.1 < w ∧ rc.2 < w) (hrc : z[n]? = some rc)
    (hb : bits[n]? = some b) : ((placeBits z bits m).cell rc.1 rc.2).dark = b := by
  induction z generalizing bits m n with
  | nil => cases hrc
  | cons rc' z ih =>
    obtain ⟨⟨hr, hc⟩, hin⟩ := List.forall_mem_cons.mp hin
    obtain ⟨hfresh, hz⟩ := List.nodup_cons.mp hz
    cases bits with
    | nil => cases hb
    | cons b' bits =>
      cases n with
      | zero =>
        obtain rfl := Option.some.inj hrc
        obtain rfl := Option.some.inj hb
        rw [placeBits_cons, cell_placeBits_of_notMem fun hmem => hfresh (List.mem_of_mem_take hmem),
          cell_setDark_self hm hr hc]
      | succ n => exact ih (square_setDark hm _ _ _) hz hin hrc hb

/-! ## Codeword bits (R192) -/

theorem length_codewordBits (b : Byte) : (codewordBits b).length = 8 := by
  rw [codewordBits, List.length_map, List.length_range]

theorem sequenceBits_cons (b : Byte) (bs : List Byte) : sequenceBits (b :: bs) = codewordBits b ++ sequenceBits bs := rfl

theorem length_sequenceBits (bs : List Byte) : (sequenceBits bs).length = 8 * bs.length := by
  induction bs with
  | nil => rfl
  | cons b bs ih => rw [sequenceBits_cons, List.length_append, length_codewordBits, ih, List.length_cons]; omega

/-- Bit 8j + t of the sequence is bit 7 − t of codeword j. -/
theorem getElem?_sequenceBits {bs : List Byte} {j t : Nat} (hj : j < bs.length) (ht : t < 8) :
    (sequenceBits bs)[8 * j + t]? = some ((bs.getD j 0).getLsbD (7 - t)) := by
  induction bs generalizing j with
  | nil => cases hj
  | cons b bs ih =>
    rw [sequenceBits_cons]
    cases j with
    | zero =>
      rw [List.getElem?_append_left (by rw [length_codewordBits]; omega)]
      simp [codewordBits, ht]
    | succ j =>
      have hplace : 8 * (j + 1) + t - 8 = 8 * j + t := by omega
      rw [List.getElem?_append_right (by rw [length_codewordBits]; omega), length_codewordBits, hplace,
        ih (Nat.lt_of_succ_lt_succ hj), List.getD_cons_succ]

/-! ## What the commands leave in the matrix -/

/-- A PLACE that reaches PLACED found room for every bit, and placed them along the zigzag order (R195). -/
theorem place_eq_next {s t : State} {c : InFlight} {bs : List Byte} (hc : s.inFlight = some c)
    (hbs : sourceBytes s c.arg0 = some bs) (hs : s.phase = .template) (h : exec .place s = .next t)
    (ht : t.phase = .placed) : 8 * bs.length ≤ s.capacity.toNat ∧ t.width = s.width ∧
      t.matrix = placeBits (zigzag s.matrix s.width.toNat) (sequenceBits bs) s.matrix := by
  have hphase : t.phase ≠ s.phase := by rw [hs, ht]; decide
  have hlen : bs.length = (sourceSpan c.arg0).len := Memory.length_readBytes hbs
  replace h : execPlace s = .next t := h
  rw [execPlace, State.withCommand_of_some hc, if_neg (not_not_intro hs)] at h
  split at h
  next =>
    cases h
    exact absurd rfl hphase
  next src hsrc =>
    obtain ⟨-, -, rfl⟩ := checkSource_eq_ok.mp hsrc
    split at h
    next =>
      obtain rfl := State.fail_eq_next.mp h
      exact absurd rfl hphase
    next hroom =>
      rw [State.readSource_of_some hbs] at h
      obtain rfl := State.succeed_eq_next.mp h
      exact ⟨by omega, rfl, rfl⟩

/-- MASK keeps which of the eight masks it holds (R33). -/
theorem eq_of_setWidth_eq_ofNat {a b : BitVec 3} (h : a.setWidth 4 = BitVec.ofNat 4 b.toNat) : a = b := by
  bv_omega

/-- A mask command that leaves k in MASK leaves mask k applied and a format word written (R228, R229). -/
theorem mask_eq_next {s u : State} {i : Instr} {k : BitVec 3} {d : InFlight} (hd : s.inFlight = some d)
    (hs : s.phase = .placed) (hi : i = .maskForce k ∨ i = .maskOpt) (h : exec i s = .next u)
    (hmask : u.mask = BitVec.ofNat 4 k.toNat) :
    ∃ fw, u.matrix = writeFormat s.width.toNat fw (candidate k s.matrix) := by
  obtain ⟨applied, happlied, hmatrix⟩ : ∃ applied : BitVec 3, u.mask = applied.setWidth 4 ∧
      u.matrix = (s.applyMask applied).matrix := by
    obtain rfl | rfl := hi
    case inl =>
      replace h : execMaskForce k s = .next u := h
      rw [execMaskForce, State.withCommand_of_some hd, if_neg (not_not_intro hs)] at h
      obtain rfl := State.succeed_eq_next.mp h
      exact ⟨_, rfl, rfl⟩
    case inr =>
      replace h : execMaskOpt s = .next u := h
      rw [execMaskOpt, State.withCommand_of_some hd, if_neg (not_not_intro hs)] at h
      obtain rfl := State.succeed_eq_next.mp h
      exact ⟨_, rfl, rfl⟩
  rw [happlied] at hmask
  rw [← eq_of_setWidth_eq_ofNat hmask]
  exact ⟨_, hmatrix⟩

/-- Candidate k, cell by cell (R211). -/
theorem dark_cell_candidate {m : Matrix} {w r c : Nat} (hm : m.Square w) (hr : r < w) (hc : c < w) (k : BitVec 3) :
    ((candidate k m).cell r c).dark = ((m.cell r c).dark ^^ (!(m.cell r c).rsv && maskPredicate k r c)) := by
  rw [candidate, cell_mapCells_of_square hm hr hc]
  cases !(m.cell r c).rsv && maskPredicate k r c <;> simp

theorem square_candidate {m : Matrix} {w : Nat} (hm : m.Square w) (k : BitVec 3) : (candidate k m).Square w :=
  square_mapCells hm _

/-- The format write leaves cells that are neither format modules nor the dark module (R225). -/
theorem cell_writeFormat_of_apart {m : Matrix} {w r c : Nat} (hm : m.Square w) (hr : r < w) (hc : c < w)
    (hformat : formatBitAt w r c = none) (hdark : (r, c) ≠ darkModuleCell w) (fw : BitVec 15) :
    (writeFormat w fw m).cell r c = m.cell r c := by
  rw [writeFormat, cell_mapCells_of_square hm hr hc, hformat]
  exact if_neg hdark

/-- A data module of a template is no format module and not the dark module (R166, R167). -/
theorem data_module_apart {v r c : Nat} (hr : r < symbolWidth v) (hc : c < symbolWidth v)
    (hrsv : ((template v).cell r c).rsv = false) :
    formatBitAt (symbolWidth v) r c = none ∧ (r, c) ≠ darkModuleCell (symbolWidth v) := by
  obtain ⟨-, hplaceholder, hdark⟩ := steps_none_of_stampAt_none ((rsv_template_eq_false_iff hr hc).mp hrsv)
  constructor
  · unfold placeholderAt at hplaceholder
    split at hplaceholder
    next => cases hplaceholder
    next hnone => exact hnone
  · intro heq
    rw [darkModuleAt, if_pos heq] at hdark
    cases hdark

/-! ## The round trip -/

theorem square_template (v : Nat) : (template v).Square (symbolWidth v) := square_tabulate _ _

/-- The template of version v after PLACE of `bs`. -/
def placedTemplate (v : Nat) (bs : List Byte) : Matrix :=
  placeBits (zigzag (template v) (symbolWidth v)) (sequenceBits bs) (template v)

/-- Bit 7 − t of codeword j reads back at Z[8j + t] (R192, R193). -/
theorem dark_cell_placedTemplate {v j t : Nat} {bs : List Byte} {rc : Coord} (hj : j < bs.length) (ht : t < 8)
    (hrc : (zigzag (template v) (symbolWidth v))[8 * j + t]? = some rc) :
    ((placedTemplate v bs).cell rc.1 rc.2).dark = (bs.getD j 0).getLsbD (7 - t) :=
  dark_cell_placeBits (square_template v) (nodup_zigzag _ v)
    (fun _ hmem => (mem_zigzag_template_iff.mp hmem).imp_right And.left) hrc (getElem?_sequenceBits hj ht)

/-- A mask command changes the modules of the order by its predicate (R196, R211). -/
theorem dark_cell_masked_placedTemplate {v : Nat} {rc : Coord} (hrc : rc ∈ zigzag (template v) (symbolWidth v))
    (bs : List Byte) (fw : BitVec 15) (k : BitVec 3) :
    ((writeFormat (symbolWidth v) fw (candidate k (placedTemplate v bs))).cell rc.1 rc.2).dark =
      (((placedTemplate v bs).cell rc.1 rc.2).dark ^^ maskPredicate k rc.1 rc.2) := by
  obtain ⟨hr, hc, hrsv⟩ := mem_zigzag_template_iff.mp hrc
  obtain ⟨hformat, hdark⟩ := data_module_apart hr hc hrsv
  have hsquare : (placedTemplate v bs).Square (symbolWidth v) := square_placeBits (square_template v) _ _
  have hplacedRsv : ((placedTemplate v bs).cell rc.1 rc.2).rsv = false := (cell_placeBits_rsv ..).trans hrsv
  rw [cell_writeFormat_of_apart (square_candidate hsquare k) hr hc hformat hdark, dark_cell_candidate hsquare hr hc,
    hplacedRsv, Bool.not_false, Bool.true_and]

/-- Settles O41: the order has a place for every bit, its modules are not reserved, and none is visited twice. -/
theorem placementRoundTrip : Obligations.PlacementRoundTrip := by
  intro s t u c d bs k i hinv hc hbs hs hplace ht hi hmask hk
  obtain ⟨-, -, ⟨-, hloaded, htemplate, -⟩, -⟩ := hinv
  obtain ⟨-, -, hwidth, -, hcapacity⟩ := hloaded (by rw [hs]; decide)
  obtain ⟨hmatrix, -⟩ := htemplate hs
  obtain ⟨hroom, htwidth, htmatrix⟩ := place_eq_next hc hbs hs hplace ht
  obtain ⟨fw, humatrix⟩ : ∃ fw, u.matrix = writeFormat t.width.toNat fw (candidate k t.matrix) :=
    mask_eq_next (s := { t with inFlight := some d }) rfl ht hi hmask hk
  generalize s.version.toNat = v at hwidth hmatrix
  rw [hmatrix, hwidth] at htmatrix
  rw [htwidth, hwidth, htmatrix] at humatrix
  rw [hcapacity, hmatrix, ← length_zigzag_template] at hroom
  rw [hmatrix, hwidth, htmatrix, humatrix]
  refine ⟨fun j b hj hb => ?_, fun r col hnot => cell_placeBits_of_notMem (length_sequenceBits bs ▸ hnot) _⟩
  obtain ⟨rc, hrc⟩ : ∃ rc, (zigzag (template v) (symbolWidth v))[8 * j + b]? = some rc :=
    ⟨_, List.getElem?_eq_getElem (by omega)⟩
  rw [List.getD_eq_getElem?_getD, hrc, Option.getD_some, ← dark_cell_placedTemplate hj hb hrc]
  exact ⟨rfl, dark_cell_masked_placedTemplate (List.mem_of_getElem? hrc) bs fw k⟩

end Sys2Proof.PlacementRoundTrip
end

section
/-! PROOF. Mask candidates (R210, R211) and the format and version words (R171, R220 to R222 of 44_mask.md). -/

namespace Sys2Proof.MaskCandidates

open Sys2Proof Sys2Proof.Machine

/-! ## Candidates -/

/-- A candidate differs from its matrix in colours only. -/
theorem cell_candidate_rsv (k : BitVec 3) (m : Matrix) (r c : Nat) :
    ((candidate k m).cell r c).rsv = (m.cell r c).rsv :=
  Matrix.cell_mapCells_rsv (fun r c x => by cases !x.rsv && maskPredicate k r c <;> rfl) r c

/-- Settles O42: the predicates are R210's by definition, and a candidate is a cell by cell map. -/
theorem candidateFlipsMaskedDataModules : Obligations.CandidateFlipsMaskedDataModules :=
  ⟨fun _ _ => ⟨beq_iff_eq, beq_iff_eq, beq_iff_eq, beq_iff_eq, beq_iff_eq, beq_iff_eq, beq_iff_eq, beq_iff_eq⟩,
    fun m _ k r c hm hr hc =>
      ⟨cell_candidate_rsv k m r c, PlacementRoundTrip.dark_cell_candidate hm hr hc k⟩⟩

/-! ## Format and version words: 32 and 34 fixed values -/

/-- A format word without its XOR mask is its data over their remainder by the generator (R221). -/
theorem formatWord_unmasked (ind : BitVec 2) (k : BitVec 3) :
    (formatWord ind k ^^^ 0x5412#15).extractLsb' 10 5 = ind ++ k ∧
      gf2Remainder 0x537 10 5 (formatWord ind k ^^^ 0x5412#15).toNat = 0 := by
  revert ind k
  decide +kernel

/-- A version word is its version over the remainder by the generator (R171). -/
theorem versionWord_div_and_gf2Remainder {v : Nat} (hv : 7 ≤ v) (hv' : v ≤ 40) :
    (versionWord v).toNat / 2 ^ 12 = v ∧ gf2Remainder 0x1F25 12 6 (versionWord v).toNat = 0 := by
  revert v
  decide +kernel

/-- Settles O47: the two tables are evaluated, and each word leaves the remainder 0. -/
theorem formatAndVersionWordsAreCodewords : Obligations.FormatAndVersionWordsAreCodewords :=
  ⟨by decide +kernel, by decide +kernel, formatWord_unmasked, fun _ => versionWord_div_and_gf2Remainder⟩

end Sys2Proof.MaskCandidates
end

section
/-! PROOF. The penalty rules (R213 to R217 of 44_mask.md). The model scores lists of colours by recursion; a row, a column and
the list of the rows of a square matrix are all `(List.range n).map f`, whose tail is the same list of `f` one place on. So
each recursion is a sum over the places where a window can begin. Rule D is arithmetic of 100·dk = T·p + r. -/

namespace Sys2Proof.PenaltyRules

open Sys2Proof Sys2Proof.Machine

/-! ## The lines of a square matrix (R213) -/

theorem rowLines_of_square {m : Matrix} {w : Nat} (hm : m.Square w) :
    rowLines m = (List.range w).map fun r => (List.range w).map fun c => (m.cell r c).dark := by
  obtain ⟨hrows, hcols⟩ := hm
  refine List.ext_getElem (by simp [rowLines, hrows]) fun r hr _ => ?_
  have hr' : r < m.length := by simpa [rowLines] using hr
  refine List.ext_getElem (by simp [rowLines, hcols]) fun c hc _ => ?_
  have hc' : c < m[r].length := by simpa [rowLines] using hc
  simp [rowLines, Matrix.cell, hr', hc']

/-- A score of lines adds up each row and each column. -/
theorem sum_map_allLines {m : Matrix} {w : Nat} (hm : m.Square w) (score : List Bool → Nat) :
    ((allLines w m).map score).sum = ((List.range w).map fun x =>
      score ((List.range w).map fun j => (m.cell x j).dark) +
      score ((List.range w).map fun j => (m.cell j x).dark)).sum := by
  rw [allLines, rowLines_of_square hm, columnLines, List.map_append, List.sum_append, List.map_map, List.map_map,
    List.sum_map_add]
  rfl

theorem map_range_succ {α : Type} (n : Nat) (f : Nat → α) :
    (List.range (n + 1)).map f = f 0 :: (List.range n).map fun i => f (i + 1) := by
  rw [List.range_succ_eq_map, List.map_cons, List.map_map]
  rfl

/-! ## Rule A (R214) -/

theorem runsFrom_replicate_append (b : Bool) (k n : Nat) (rest : List Bool) :
    runsFrom b k (List.replicate n b ++ rest) = runsFrom b (k + n) rest := by
  induction n generalizing k with
  | zero => rfl
  | succ n ih => rw [List.replicate_succ, List.cons_append, runsFrom, if_pos rfl, ih, Nat.add_assoc, Nat.add_comm 1]

theorem runsFrom_of_head?_ne {b : Bool} {rest : List Bool} (h : rest.head? ≠ some b) (n : Nat) :
    runsFrom b n rest = runPoints n + lineRunPoints rest := by
  cases rest with
  | nil => rfl
  | cons x l => rw [runsFrom, if_neg fun hx => h (congrArg some hx), lineRunPoints]

/-- Settles O43: the recursion counts the cells of the current run. -/
theorem ruleACountsMaximalRuns : Obligations.RuleACountsMaximalRuns := by
  refine ⟨rfl, fun n b rest hn hrest => ?_, fun m w hm => sum_map_allLines hm lineRunPoints⟩
  obtain ⟨n, rfl⟩ := Nat.exists_eq_add_of_le hn
  calc lineRunPoints (List.replicate (1 + n) b ++ rest)
      = runsFrom b 1 (List.replicate n b ++ rest) := by rw [Nat.add_comm, List.replicate_succ]; rfl
    _ = runsFrom b (1 + n) rest := runsFrom_replicate_append b 1 n rest
    _ = runPoints (1 + n) + lineRunPoints rest := runsFrom_of_head?_ne hrest (1 + n)

/-! ## Rule B (R215) -/

theorem blockPoints_map_range (n : Nat) (f g : Nat → Bool) :
    blockPoints ((List.range n).map f) ((List.range n).map g) =
      ((List.range (n - 1)).map fun c => if f c = f (c + 1) ∧ f c = g c ∧ f c = g (c + 1) then 3 else 0).sum := by
  induction n generalizing f g with
  | zero => rfl
  | succ n ih =>
    cases n with
    | zero => rfl
    | succ n =>
      replace ih := ih (fun i => f (i + 1)) (fun i => g (i + 1))
      simp only [map_range_succ, Nat.add_sub_cancel, List.sum_cons] at ih ⊢
      rw [blockPoints, ih]

theorem blockRows_map_range (n : Nat) (row : Nat → List Bool) :
    blockRows ((List.range n).map row) = ((List.range (n - 1)).map fun r => blockPoints (row r) (row (r + 1))).sum := by
  induction n generalizing row with
  | zero => rfl
  | succ n ih =>
    cases n with
    | zero => rfl
    | succ n =>
      replace ih := ih fun i => row (i + 1)
      simp only [map_range_succ, Nat.add_sub_cancel, List.sum_cons] at ih ⊢
      rw [blockRows, ih]

/-- Four cells have one colour when none or all of them are dark. -/
theorem uniform_iff_count : ∀ x y z u : Bool, (x = y ∧ x = z ∧ x = u) ↔
    (x.toNat + y.toNat + z.toNat + u.toNat = 0 ∨ x.toNat + y.toNat + z.toNat + u.toNat = 4) := by decide

/-! ## Rule C (R216) -/

/-- What the window `l` of a line adds. -/
def patternPoints (l : List Bool) : Nat := if l = finderLike₁ ∨ l = finderLike₂ then 40 else 0

theorem patternPoints_of_short {l : List Bool} (h : l.length < 11) : patternPoints l = 0 := by
  refine if_neg ?_
  rintro (rfl | rfl) <;> exact absurd h (by decide)

theorem linePatternPoints_map_range (n : Nat) (f : Nat → Bool) :
    linePatternPoints ((List.range n).map f) =
      ((List.range (n - 10)).map fun i => patternPoints ((List.range 11).map fun j => f (i + j))).sum := by
  induction n generalizing f with
  | zero => rfl
  | succ n ih =>
    have hstep : linePatternPoints ((List.range (n + 1)).map f) =
        patternPoints (((List.range (n + 1)).map f).take 11) + linePatternPoints ((List.range n).map fun i => f (i + 1)) := by
      rw [map_range_succ]
      rfl
    rw [hstep, ih]
    by_cases hn : 10 ≤ n
    · have hwindows : n + 1 - 10 = (n - 10) + 1 := by omega
      have hwindow : ((List.range (n + 1)).map f).take 11 = (List.range 11).map fun j => f (0 + j) := by
        simp only [← List.map_take, List.take_range, Nat.zero_add, Nat.min_eq_left (show 11 ≤ n + 1 by omega)]
      simp only [hwindows, map_range_succ (n - 10), List.sum_cons, hwindow, Nat.add_right_comm]
    · have hshort : (((List.range (n + 1)).map f).take 11).length < 11 := by simp; omega
      rw [patternPoints_of_short hshort, Nat.sub_eq_zero_of_le (by omega), Nat.sub_eq_zero_of_le (by omega)]
      rfl

/-- Settles O44: both rules are sums over the places where a window can begin. -/
theorem rulesBAndCCountWindows : Obligations.RulesBAndCCountWindows := by
  intro m w hm isPattern
  constructor
  · rw [ruleB, rowLines_of_square hm, blockRows_map_range]
    simp only [blockPoints_map_range, uniform_iff_count]
  · rw [ruleC, sum_map_allLines hm]
    simp only [linePatternPoints_map_range, ← List.sum_map_add]
    rfl

/-! ## Rule D (R217) -/

theorem darkCount_of_square {m : Matrix} {w : Nat} (hm : m.Square w) :
    darkCount m = ((List.range w).map fun r => (List.range w).countP fun c => (m.cell r c).dark).sum := by
  have hrows : darkCount m = ((rowLines m).map (List.countP id)).sum := by
    rw [darkCount, rowLines, List.map_map]
    simp only [Function.comp_def, List.countP_map, id]
  rw [hrows, rowLines_of_square hm, List.map_map]
  simp only [Function.comp_def, List.countP_map, id]

theorem cast_dist (a b : Nat) : ((Machine.dist a b : Nat) : ℚ) = |(a : ℚ) - b| := by
  rcases Nat.le_total a b with h | h
  · rw [Machine.dist, Nat.sub_eq_zero_of_le h, Nat.zero_add, Nat.cast_sub h, abs_sub_comm,
      abs_of_nonneg (sub_nonneg.mpr (Nat.cast_le.mpr h))]
  · rw [Machine.dist, Nat.sub_eq_zero_of_le h, Nat.add_zero, Nat.cast_sub h,
      abs_of_nonneg (sub_nonneg.mpr (Nat.cast_le.mpr h))]

theorem balanceStep_floorPercent (dk t : Nat) :
    balanceStep .floorPercent dk t = ⌊|(⌊100 * (dk : ℚ) / t⌋ : ℚ) - 50| / 5⌋₊ := by
  have hfloor : ⌊100 * (dk : ℚ) / t⌋ = ((100 * dk / t : ℕ) : ℤ) := by
    rw [← Nat.floor_div_eq_div (K := ℚ), Int.natCast_floor_eq_floor (by positivity)]
    push_cast
    rfl
  rw [hfloor, Int.cast_natCast, balanceStep, ← Nat.floor_div_eq_div (K := ℚ) _ 5, cast_dist, Nat.cast_ofNat, Nat.cast_ofNat]

section
variable {t : Nat} (ht : 0 < t) (dk : Nat)
include ht

theorem balanceStep_exact : balanceStep .exact dk t = ⌊|100 * (dk : ℚ) / t - 50| / 5⌋₊ := by
  have ht' : (t : ℚ) ≠ 0 := Nat.cast_ne_zero.mpr ht.ne'
  have hscale : |100 * (dk : ℚ) / t - 50| / 5 = (Machine.dist (20 * dk) (10 * t) : ℕ) / (t : ℚ) :=
    calc |100 * (dk : ℚ) / t - 50| / 5
        = |(100 * (dk : ℚ) / t - 50) / 5| := by rw [abs_div, Nat.abs_ofNat]
      _ = |(20 * (dk : ℚ) - 10 * t) / t| := by
        congr 1
        field_simp
        ring
      _ = (Machine.dist (20 * dk) (10 * t) : ℕ) / (t : ℚ) := by
        rw [abs_div, Nat.abs_cast, cast_dist]
        push_cast
        rfl
  rw [hscale, Nat.floor_div_eq_div, balanceStep]

/-- The exact step from the whole percent p and the rest r of 100·dk = t·p + r: below balance a rest takes one percent off the
distance. -/
theorem balanceStep_exact_eq_percent : balanceStep .exact dk t =
    (if 50 ≤ 100 * dk / t then 100 * dk / t - 50
      else if 100 * dk % t = 0 then 50 - 100 * dk / t else 49 - 100 * dk / t) / 5 := by
  have hscale : balanceStep .exact dk t = Machine.dist (100 * dk) (t * 50) / t / 5 := by
    rw [balanceStep, Nat.div_div_eq_div_mul, Nat.mul_comm t 5, ← Nat.mul_div_mul_left _ t (show 0 < 5 by decide)]
    simp only [Machine.dist]
    congr 1
    omega
  have hpercent {d k s : Nat} (hd : d = t * k + s) (hs : s < t) : d / t = k := by
    rw [hd, Nat.mul_add_div ht, Nat.div_eq_of_lt hs, Nat.add_zero]
  have hdivmod := Nat.div_add_mod (100 * dk) t
  have hrest := Nat.mod_lt (100 * dk) ht
  rw [hscale]
  congr 1
  generalize 100 * dk / t = p at *
  generalize 100 * dk % t = r at *
  rw [← hdivmod, Machine.dist]
  have hmul {a b : Nat} (h : a ≤ b) : t * b = t * a + t * (b - a) := by rw [← Nat.mul_add, Nat.add_sub_cancel' h]
  split
  case isTrue habove =>
    have := hmul habove
    exact hpercent (s := r) (by omega) hrest
  case isFalse hbelow =>
    have := hmul (Nat.le_of_not_le hbelow)
    split
    case isTrue => exact hpercent (s := 0) (by omega) ht
    case isFalse =>
      have := hmul (show p ≤ 49 by omega)
      exact hpercent (s := t - r) (by omega) (by omega)

theorem between_iff_div_mod (a n : Nat) : ((n : ℚ) < a / t ∧ (a : ℚ) / t < n + 1) ↔ a / t = n ∧ a % t ≠ 0 := by
  have ht' : (0 : ℚ) < t := Nat.cast_pos.mpr ht
  have hnat : ((n : ℚ) < a / t ∧ (a : ℚ) / t < n + 1) ↔ n * t < a ∧ a < (n + 1) * t := by
    rw [lt_div_iff₀ ht', div_lt_iff₀ ht']
    norm_cast
  have hdivmod := Nat.div_add_mod' a t
  rw [hnat]
  constructor
  · rintro ⟨hlo, hhi⟩
    obtain rfl := Nat.div_eq_of_lt_le hlo.le hhi
    exact ⟨rfl, by omega⟩
  · rintro ⟨rfl, hr⟩
    have hrest := Nat.mod_lt a ht
    rw [Nat.add_mul]
    exact ⟨by omega, by omega⟩

/-- The modes differ where the percent is below balance, a multiple of 5, and not exact. -/
theorem balanceStep_ne_iff : balanceStep .exact dk t ≠ balanceStep .floorPercent dk t ↔
    ∃ j, j ≤ 9 ∧ 100 * dk / t = 5 * j ∧ 100 * dk % t ≠ 0 := by
  rw [balanceStep_exact_eq_percent ht, balanceStep, Machine.dist]
  generalize 100 * dk / t = p
  generalize 100 * dk % t = r
  constructor
  · intro h
    refine ⟨p / 5, ?_⟩
    split_ifs at h <;> omega
  · rintro ⟨j, hj, rfl, hr⟩
    rw [if_neg (by omega), if_neg hr]
    omega

end

/-- Settles O45: both roundings are divisions of the distance from balance. -/
theorem ruleDScoresTheBalance : Obligations.RuleDScoresTheBalance := by
  intro m w hm hw dk q
  have ht : 0 < w * w := Nat.mul_pos hw hw
  have hq : q = 100 * (dk : ℚ) / (w * w : ℕ) := by rw [Nat.cast_mul]
  have hrule (mode : BalanceMode) : ruleD mode w m = 10 * balanceStep mode dk (w * w) := by
    rw [ruleD, darkCount_of_square hm]
  rw [hrule, hrule]
  refine ⟨by rw [balanceStep_exact ht, hq], by rw [balanceStep_floorPercent, hq], ?_⟩
  have hbetween (j : Nat) : (5 * (j : ℚ) < q ∧ q < 5 * (j : ℚ) + 1) ↔
      100 * dk / (w * w) = 5 * j ∧ 100 * dk % (w * w) ≠ 0 := by
    rw [hq, ← between_iff_div_mod ht]
    push_cast
    rfl
  simp only [hbetween, ← balanceStep_ne_iff ht]
  omega

end Sys2Proof.PenaltyRules
end

section
/-! PROOF. A host write to CMD (R24, R250, R252 of 60_exceptions.md): dropped while BUSY, accepted otherwise. -/

namespace Sys2Proof.CommandWrite

open Sys2Proof Sys2Proof.Machine

/-- A host write to CMD reaches `writeCmd`, on the state with one host step less to wait. -/
theorem step_of_cmdWrite {s : State} {w : Word} {rest : List HostAccess} (h : HostMovesNext s (.write 0x00C 4 w) rest) :
    step s = .next ((waited s rest).writeCmd w) :=
  step_of_hostMovesNext h

theorem writeCmd_of_busy {s : State} (h : s.busy = true) (w : Word) : s.writeCmd w = { s with ovf := true } :=
  if_pos h

theorem writeCmd_of_not_busy {s : State} (h : s.busy = false) (w : Word) : s.writeCmd w = s.accept w :=
  if_neg (Bool.eq_false_iff.mp h)

/-- OVF raises IRQ if IE = 1 (R263). -/
theorem irq_of_ovf {s : State} (h : s.ovf = true) : s.irq = s.ie := by
  simp [State.irq, h]

/-- Settles O8: the write reaches `writeCmd`, which drops the word while BUSY and accepts it otherwise. -/
theorem commandWriteWhileBusyIsDropped : Obligations.CommandWriteWhileBusyIsDropped := by
  intro s w rest
  constructor
  · intro c hc hmoves
    have hbusy : (waited s rest).busy = true := by
      rw [waited_busy, State.busy, hc]
      rfl
    refine ⟨_, step_of_cmdWrite hmoves, ?_, ?_⟩
    · rw [writeCmd_of_busy hbusy]
      exact irq_of_ovf rfl
    · rw [writeCmd_of_busy hbusy]
      simp [waited, hc]
  · intro hnone hqueue
    have hidle : (waited s rest).busy = false := by
      rw [waited_busy, State.busy, hnone]
      rfl
    have hmoves : HostMovesNext s (.write 0x00C 4 w) rest := ⟨hqueue, by simp [hnone]⟩
    refine ⟨_, step_of_cmdWrite hmoves, ?_⟩
    rw [writeCmd_of_not_busy hidle]
    rfl

end Sys2Proof.CommandWrite
end

section
/-! PROOF. A completion with an error (R251, R253 of 60_exceptions.md). Every command answers a next state in one of two ways: by
`raise` on the state as it stood, or by `finish` on the state with its effects, and ERR is no effect of a command. -/

namespace Sys2Proof.Completion

open Sys2Proof Sys2Proof.Machine

/-- `u` is `s` with a command's effects: results, the symbol and score registers, the matrix, DMEM and the caches may differ,
the host's registers, the lifecycle registers, the command in flight and the model's own fields do not. -/
def HasCommandEffects (s u : State) : Prop :=
  u = { s with
    res0 := u.res0, res1 := u.res1, version := u.version, width := u.width, level := u.level, phase := u.phase
    mask := u.mask, fmt := u.fmt, capacity := u.capacity, placed := u.placed, scored := u.scored, score := u.score
    pen := u.pen, matrix := u.matrix, dmem := u.dmem, genCache := u.genCache, tplCache := u.tplCache }

/-- A next state of `r` is `s` with an error report and no other effect, or `s` with a command's effects, completed. -/
def CompletesFrom (s : State) (r : Result) : Prop :=
  ∀ t, r = .next t → (∃ e, t = s.raise e) ∨ ∃ u, HasCommandEffects s u ∧ t = u.finish

theorem completesFrom_raise {s : State} {e : CommandError} : CompletesFrom s (.next (s.raise e)) := by
  rintro t ⟨⟩
  exact .inl ⟨e, rfl⟩

theorem completesFrom_fail {s : State} {name : ErrorName} {argIdx : BitVec 4} {info : Word} :
    CompletesFrom s (s.fail name argIdx info) :=
  completesFrom_raise

theorem completesFrom_succeed {s u : State} (h : HasCommandEffects s u) : CompletesFrom s u.succeed :=
  fun _ ht => .inr ⟨u, h, State.succeed_eq_next.mp ht⟩

theorem completesFrom_withCommand {s : State} {k : InFlight → Result} (h : ∀ c, CompletesFrom s (k c)) :
    CompletesFrom s (s.withCommand k) := by
  intro t ht
  obtain ⟨c, -, hk⟩ := State.withCommand_eq_next.mp ht
  exact h c t hk

theorem completesFrom_readSource {s : State} {sp : Span} {k : List Byte → Result} (h : ∀ bs, CompletesFrom s (k bs)) :
    CompletesFrom s (s.readSource sp k) := by
  intro t ht
  obtain ⟨bs, -, hk⟩ := State.readSource_eq_next.mp ht
  exact h bs t hk

theorem completesFrom_ite {s : State} {p : Prop} [Decidable p] {r r' : Result} (h : CompletesFrom s r)
    (h' : CompletesFrom s r') : CompletesFrom s (if p then r else r') := by
  split
  · exact h
  · exact h'

/-- Every command, checks and effects: a failed check raises on the state as it stood, before any effect. -/
theorem completesFrom_exec (i : Instr) (s : State) : CompletesFrom s (exec i s) := by
  cases i with
  | nop | gfAdd | gfSub | gfMul => exact completesFrom_withCommand fun _ => completesFrom_succeed rfl
  | gfDiv | gfPow =>
    refine completesFrom_withCommand fun c => ?_
    split
    · exact completesFrom_fail
    · exact completesFrom_succeed rfl
  | gfExp | gfLog | maskScore | maskOpt | maskForce =>
    exact completesFrom_withCommand fun _ => completesFrom_ite (completesFrom_fail) (completesFrom_succeed rfl)
  | polyMul =>
    refine completesFrom_withCommand fun c => ?_
    split
    · exact completesFrom_raise
    · exact completesFrom_readSource fun _ => completesFrom_readSource fun _ => completesFrom_succeed rfl
  | polyMod =>
    refine completesFrom_withCommand fun c => ?_
    split
    · exact completesFrom_raise
    · exact completesFrom_readSource fun _ => completesFrom_readSource fun _ =>
        completesFrom_ite (completesFrom_fail) (completesFrom_succeed rfl)
  | rsGen =>
    refine completesFrom_withCommand fun c => ?_
    split
    · exact completesFrom_raise
    · exact completesFrom_succeed rfl
  | rsEcc =>
    refine completesFrom_withCommand fun c => ?_
    split
    · exact completesFrom_raise
    · exact completesFrom_readSource fun _ => completesFrom_succeed rfl
  | tplLoad =>
    exact completesFrom_withCommand fun _ => completesFrom_ite (completesFrom_fail) <|
      completesFrom_ite (completesFrom_fail) (completesFrom_succeed rfl)
  | place =>
    refine completesFrom_withCommand fun c => completesFrom_ite (completesFrom_fail) ?_
    split
    · exact completesFrom_raise
    · exact completesFrom_ite (completesFrom_fail) <| completesFrom_readSource fun _ => completesFrom_succeed rfl

/-- An illegal word's completion too. -/
theorem completesFrom_completeCommand (c : InFlight) (s : State) : CompletesFrom s (completeCommand c s) := by
  unfold completeCommand
  split
  · exact completesFrom_exec _ _
  · exact completesFrom_fail

/-- A command's effects keep ERR, which only `raise` sets. -/
theorem err_finish_of_hasCommandEffects {s u : State} (h : HasCommandEffects s u) : u.finish.err = s.err := by
  rw [h]
  rfl

/-- Settles O53: a completion that sets ERR is a `raise` on the state as it stood. -/
theorem errorCompletionsHaveNoOtherEffect : Obligations.ErrorCompletionsHaveNoOtherEffect := by
  intro s t c hc hd hs hstep ht
  rw [Encoding.step_of_delay_zero hc hd] at hstep
  obtain ⟨e, rfl⟩ | ⟨u, hu, rfl⟩ := completesFrom_completeCommand c s t hstep
  · rfl
  · rw [err_finish_of_hasCommandEffects hu, hs] at ht
    cases ht

end Sys2Proof.Completion
end

section
/-! PROOF. Decoding and encoding are inverse (R81 to R83, R90 of 30_encoding.md). A word with zeros where a command's format has Z
is the format's word of its own opcode and fields; so is a command's word, and the parts of a concatenation are its own. -/

namespace Sys2Proof.EncodingRoundTrip

open Sys2Proof Sys2Proof.Machine Sys2Proof.Encoding

/-! ## A word is the concatenation of its format's fields -/

/-- Two neighbouring fields of a word are one field. -/
theorem extractLsb'_append_below (w : Word) {s t k l : Nat} (h : t = s + l) :
    w.extractLsb' t k ++ w.extractLsb' s l = w.extractLsb' s (k + l) :=
  BitVec.extractLsb'_append_extractLsb'_eq_extractLsb' h

theorem encodeN_of_reservedZero {w : Word} (hz : reservedZeroN w = true) : encodeN (fieldOp w) = w := by
  rw [encodeN, fieldOp, ← eq_of_beq hz]
  simp only [extractLsb'_append_below, BitVec.extractLsb'_eq_self]

theorem encodeG_of_reservedZero {w : Word} (hz : reservedZeroG w = true) :
    encodeG (fieldOp w) (field15 w) (field7 w) = w := by
  rw [encodeG, fieldOp, field15, field7, ← eq_of_beq hz]
  simp only [extractLsb'_append_below, BitVec.extractLsb'_eq_self]

theorem encodeP_of_fields (w : Word) : encodeP (fieldOp w) (field23 w) (fieldE w) = w := by
  simp only [encodeP, fieldOp, field23, fieldE, extractLsb'_append_below, BitVec.extractLsb'_eq_self]

theorem encodeU_of_reservedZero {w : Word} (hz : reservedZeroU w = true) : encodeU (fieldOp w) (field7 w) = w := by
  rw [encodeU, fieldOp, field7, ← eq_of_beq hz]
  simp only [extractLsb'_append_below, BitVec.extractLsb'_eq_self]

theorem encodeT_of_reservedZero {w : Word} (hz : reservedZeroT w = true) :
    encodeT (fieldOp w) (field15 w) (fieldLvl w) = w := by
  obtain ⟨hhigh, hlow⟩ := (Bool.and_eq_true _ _).mp hz
  rw [encodeT, fieldOp, field15, fieldLvl, ← eq_of_beq hhigh, ← eq_of_beq hlow]
  simp only [extractLsb'_append_below, BitVec.extractLsb'_eq_self]

theorem encodeK_of_reservedZero {w : Word} (hz : reservedZeroK w = true) : encodeK (fieldOp w) (fieldK w) = w := by
  rw [encodeK, fieldOp, fieldK, ← eq_of_beq hz]
  simp only [extractLsb'_append_below, BitVec.extractLsb'_eq_self]

/-- A word that matches a command's row encodes the command with the word's fields. -/
theorem encode_withFields_of_matches {w : Word} {i : Instr} (h : (opcodeRow i).Matches w) :
    encode (withFields w i) = w := by
  obtain ⟨hop, hz⟩ := (matches_opcodeRow_iff i w).mp h
  cases i with
  | nop | polyMul | polyMod | place | maskOpt =>
    exact (congrArg encodeN hop).symm.trans (encodeN_of_reservedZero hz)
  | gfAdd | gfSub | gfMul | gfDiv =>
    exact (congrArg (encodeG · (field15 w) (field7 w)) hop).symm.trans (encodeG_of_reservedZero hz)
  | gfPow => exact (congrArg (encodeP · (field23 w) (fieldE w)) hop).symm.trans (encodeP_of_fields w)
  | gfExp | gfLog | rsGen | rsEcc =>
    exact (congrArg (encodeU · (field7 w)) hop).symm.trans (encodeU_of_reservedZero hz)
  | tplLoad => exact (congrArg (encodeT · (field15 w) (fieldLvl w)) hop).symm.trans (encodeT_of_reservedZero hz)
  | maskScore | maskForce => exact (congrArg (encodeK · (fieldK w)) hop).symm.trans (encodeK_of_reservedZero hz)

/-! ## A command's word -/

/-- Each command's word matches its row. -/
theorem matches_encode (i : Instr) : (opcodeRow i).Matches (encode i) := by
  cases i with
  | nop | polyMul | polyMod | place | maskOpt => rfl
  | gfAdd a b | gfSub a b | gfMul a b | gfDiv a b => exact Laws.OpcodeRow.encodeG_row _ a b
  | gfPow a e => exact Laws.OpcodeRow.gfPow a e
  | gfExp a | gfLog a | rsGen a | rsEcc a => exact Laws.OpcodeRow.encodeU_row _ a
  | tplLoad ver lvl => exact Laws.OpcodeRow.tplLoad ver lvl
  | maskScore k | maskForce k => exact Laws.OpcodeRow.encodeK_row _ k

/-- Equal concatenations of one shape end alike. -/
theorem append_right_inj {k l : Nat} {a b : BitVec k} {c d : BitVec l} (h : a ++ c = b ++ d) : c = d :=
  (append_eq_append_iff.mp h).2

theorem append_left_inj {k l : Nat} {a b : BitVec k} {c d : BitVec l} (h : a ++ c = b ++ d) : a = b :=
  (append_eq_append_iff.mp h).1

theorem encodeG_inj {op a b a' b' : BitVec 8} (h : encodeG op a b = encodeG op a' b') : a = a' ∧ b = b' :=
  ⟨append_right_inj (append_left_inj h), append_right_inj h⟩

theorem encodeP_inj {op a a' : BitVec 8} {e e' : BitVec 16} (h : encodeP op a e = encodeP op a' e') : a = a' ∧ e = e' :=
  ⟨append_right_inj (append_left_inj h), append_right_inj h⟩

theorem encodeU_inj {op a a' : BitVec 8} (h : encodeU op a = encodeU op a') : a = a' := append_right_inj h

theorem encodeT_inj {op ver ver' : BitVec 8} {lvl lvl' : BitVec 4} (h : encodeT op ver lvl = encodeT op ver' lvl') :
    ver = ver' ∧ lvl = lvl' :=
  ⟨append_right_inj (append_left_inj (append_left_inj h)), append_right_inj h⟩

theorem encodeK_inj {op : BitVec 8} {k k' : BitVec 3} (h : encodeK op k = encodeK op k') : k = k' := append_right_inj h

/-- Equal words of one command with two choices of its fields have equal fields. -/
theorem withFields_of_encode_eq {w : Word} {i : Instr} (h : encode (withFields w i) = encode i) :
    withFields w i = i := by
  cases i with
  | nop | polyMul | polyMod | place | maskOpt => rfl
  | gfAdd | gfSub | gfMul | gfDiv =>
    obtain ⟨ha, hb⟩ := encodeG_inj h
    rw [withFields, ha, hb]
  | gfPow =>
    obtain ⟨ha, he⟩ := encodeP_inj h
    rw [withFields, ha, he]
  | gfExp | gfLog | rsGen | rsEcc => rw [withFields, encodeU_inj h]
  | tplLoad =>
    obtain ⟨hver, hlvl⟩ := encodeT_inj h
    rw [withFields, hver, hlvl]
  | maskScore | maskForce => rw [withFields, encodeK_inj h]

theorem withFields_encode (i : Instr) : withFields (encode i) i = i :=
  withFields_of_encode_eq (encode_withFields_of_matches (matches_encode i))

theorem decode_encode (i : Instr) : decode (encode i) = .ok i :=
  decode_eq_ok_iff.mpr ⟨matches_encode i, withFields_encode i⟩

theorem encode_of_decode_eq_ok {w : Word} {i : Instr} (h : decode w = .ok i) : encode i = w := by
  obtain ⟨hm, hf⟩ := decode_eq_ok_iff.mp h
  rw [← hf]
  exact encode_withFields_of_matches hm

/-- Settles O2: a command's word matches its row and holds its fields, and a legal word is made of them. -/
theorem decodeAndEncodeAreInverse : Obligations.DecodeAndEncodeAreInverse :=
  ⟨decode_encode, fun _ _ => encode_of_decode_eq_ok⟩

/-- Settles O1: each word is evaluated. -/
theorem writtenOutWordsDecode : Obligations.WrittenOutWordsDecode :=
  ⟨rfl, rfl, rfl, rfl, rfl, rfl, rfl, rfl, rfl, rfl, rfl⟩

end Sys2Proof.EncodingRoundTrip
end

section
/-! PROOF. The operand checks (R65, R66, R257) and what they say: an accepted operand gives its span, a refused one its report, and
a command's checks together give its plan exactly when each of them passes. -/

namespace Sys2Proof.OperandChecks

open Sys2Proof Sys2Proof.Machine

/-! ## One operand -/

theorem checkSource_of_ok {n : Nat} {d : Word} (h : SourceOk n d) (i : BitVec 4) : checkSource i n d = .ok (sourceSpan d) :=
  checkSource_eq_ok.mpr ⟨h.1, h.2, rfl⟩

/-- The length rule comes first (R257). -/
theorem checkSource_of_short {n : Nat} {d : Word} (h : (sourceSpan d).len < n) (i : BitVec 4) :
    checkSource i n d = .error ⟨.length, i, d⟩ :=
  if_pos h

theorem checkSource_of_outside {n : Nat} {d : Word} (hlen : n ≤ (sourceSpan d).len) (h : ¬ SourceOk n d) (i : BitVec 4) :
    checkSource i n d = .error ⟨.range, i, d⟩ :=
  (if_neg hlen.not_gt).trans (if_pos (not_le.mp fun hle => h ⟨hlen, hle⟩))

theorem checkDest_of_ok {n : Nat} {d : Word} (h : DestOk n d) : checkDest n d = .ok ⟨destAddr d, n⟩ :=
  checkDest_eq_ok.mpr ⟨h, rfl⟩

theorem checkDest_of_outside {n : Nat} {d : Word} (h : ¬ DestOk n d) : checkDest n d = .error ⟨.range, 2, d⟩ :=
  if_pos (not_le.mp h)

theorem checkDegree_of_ok {n : BitVec 8} (h : 1 ≤ n.toNat) (h' : n.toNat ≤ Config.rsMaxDegree) :
    checkDegree n = .ok n.toNat :=
  checkDegree_eq_ok.mpr ⟨h, h', rfl⟩

theorem checkDegree_of_outside {n : BitVec 8} (h : ¬(1 ≤ n.toNat ∧ n.toNat ≤ Config.rsMaxDegree)) :
    checkDegree n = .error ⟨.degree, 0, zext n⟩ :=
  if_pos (by omega)

/-! ## ARGIDX of a report (R27) -/

/-- ARGIDX is 0 but for E_LENGTH and E_RANGE, and names one of the three ARG registers (R27). -/
def ArgIdxOk (e : CommandError) : Prop := e.argIdx ≠ 0 → e.argIdx.toNat ≤ 2 ∧ (e.name = .length ∨ e.name = .range)

/-- Whatever a chain of checks reports, its ARGIDX is right. -/
def ReportsArgIdx {α : Type} (x : Except CommandError α) : Prop := ∀ e, x = .error e → ArgIdxOk e

theorem argIdxOk_zero (name : ErrorName) (info : Word) : ArgIdxOk ⟨name, 0, info⟩ := fun h => absurd rfl h

theorem reportsArgIdx_checkSource {i : BitVec 4} (hi : i.toNat ≤ 2) (n : Nat) (d : Word) :
    ReportsArgIdx (checkSource i n d) := by
  intro e he
  simp only [checkSource] at he
  split_ifs at he
  · cases he
    exact fun _ => ⟨hi, .inl rfl⟩
  · cases he
    exact fun _ => ⟨hi, .inr rfl⟩

theorem reportsArgIdx_checkDest (n : Nat) (d : Word) : ReportsArgIdx (checkDest n d) := by
  intro e he
  unfold checkDest at he
  split at he
  · cases he
    exact fun _ => ⟨le_rfl, .inr rfl⟩
  · cases he

theorem reportsArgIdx_checkDegree (n : BitVec 8) : ReportsArgIdx (checkDegree n) := by
  intro e he
  unfold checkDegree at he
  split at he
  · cases he
    exact argIdxOk_zero _ _
  · cases he

theorem reportsArgIdx_pure {α : Type} (a : α) : ReportsArgIdx (pure a) := fun _ he => nomatch he

theorem reportsArgIdx_bind {α β : Type} {x : Except CommandError α} {f : α → Except CommandError β}
    (hx : ReportsArgIdx x) (hf : ∀ a, ReportsArgIdx (f a)) : ReportsArgIdx (x >>= f) := by
  cases x with
  | error e =>
    intro e' he
    cases he
    exact hx e rfl
  | ok a => exact hf a

/-! ## A command's operands -/

theorem bind_eq_ok {α β : Type} {x : Except CommandError α} {f : α → Except CommandError β} {b : β} :
    (x >>= f) = .ok b ↔ ∃ a, x = .ok a ∧ f a = .ok b := by
  cases x with
  | error e => exact ⟨(nomatch ·), fun ⟨_, h, _⟩ => nomatch h⟩
  | ok a => exact ⟨fun h => ⟨a, rfl, h⟩, fun ⟨_, ha, h⟩ => Except.ok.inj ha ▸ h⟩

theorem error_bind {α β : Type} {x : Except CommandError α} {f : α → Except CommandError β} {e : CommandError}
    (h : x = .error e) : (x >>= f) = .error e := by
  rw [h]
  rfl

theorem ok_bind {α β : Type} {x : Except CommandError α} {f : α → Except CommandError β} {a : α} (h : x = .ok a) :
    (x >>= f) = f a := by
  rw [h]
  rfl

/-- POLY.MUL's spans: the two sources, and the product's place (R119). -/
def polyMulSpans (c : InFlight) : TwoSources :=
  ⟨sourceSpan c.arg0, sourceSpan c.arg1, ⟨destAddr c.arg2, (sourceSpan c.arg0).len + (sourceSpan c.arg1).len - 1⟩⟩

theorem polyMulPlan_eq_ok {c : InFlight} {p : TwoSources} :
    polyMulPlan c = .ok p ↔ SourceOk 1 c.arg0 ∧ SourceOk 1 c.arg1 ∧
      DestOk ((sourceSpan c.arg0).len + (sourceSpan c.arg1).len - 1) c.arg2 ∧ p = polyMulSpans c := by
  simp only [polyMulPlan, bind_eq_ok, checkSource_eq_ok, checkDest_eq_ok, SourceOk, DestOk, polyMulSpans]
  constructor
  · rintro ⟨_, ⟨h0, h0', rfl⟩, _, ⟨h1, h1', rfl⟩, _, ⟨h2, rfl⟩, ⟨⟩⟩
    exact ⟨⟨h0, h0'⟩, ⟨h1, h1'⟩, h2, rfl⟩
  · rintro ⟨⟨h0, h0'⟩, ⟨h1, h1'⟩, h2, rfl⟩
    exact ⟨_, ⟨h0, h0', rfl⟩, _, ⟨h1, h1', rfl⟩, _, ⟨h2, rfl⟩, rfl⟩

/-- POLY.MOD's spans: dividend, divisor, and the remainder's place (R120). -/
def polyModSpans (c : InFlight) : TwoSources :=
  ⟨sourceSpan c.arg0, sourceSpan c.arg1, ⟨destAddr c.arg2, (sourceSpan c.arg1).len - 1⟩⟩

theorem polyModPlan_eq_ok {c : InFlight} {p : TwoSources} :
    polyModPlan c = .ok p ↔ SourceOk 0 c.arg0 ∧ SourceOk 2 c.arg1 ∧
      DestOk ((sourceSpan c.arg1).len - 1) c.arg2 ∧ p = polyModSpans c := by
  simp only [polyModPlan, bind_eq_ok, checkSource_eq_ok, checkDest_eq_ok, SourceOk, DestOk, polyModSpans]
  constructor
  · rintro ⟨_, ⟨h0, h0', rfl⟩, _, ⟨h1, h1', rfl⟩, _, ⟨h2, rfl⟩, ⟨⟩⟩
    exact ⟨⟨h0, h0'⟩, ⟨h1, h1'⟩, h2, rfl⟩
  · rintro ⟨⟨h0, h0'⟩, ⟨h1, h1'⟩, h2, rfl⟩
    exact ⟨_, ⟨h0, h0', rfl⟩, _, ⟨h1, h1', rfl⟩, _, ⟨h2, rfl⟩, rfl⟩

theorem rsGenPlan_eq_ok {n : BitVec 8} {c : InFlight} {sp : Span} :
    rsGenPlan n c = .ok sp ↔ (1 ≤ n.toNat ∧ n.toNat ≤ Config.rsMaxDegree) ∧ DestOk (n.toNat + 1) c.arg2 ∧
      sp = ⟨destAddr c.arg2, n.toNat + 1⟩ := by
  simp only [rsGenPlan, bind_eq_ok, checkDegree_eq_ok, checkDest_eq_ok, DestOk]
  constructor
  · rintro ⟨_, ⟨h, h', rfl⟩, h2, rfl⟩
    exact ⟨⟨h, h'⟩, h2, rfl⟩
  · rintro ⟨⟨h, h'⟩, h2, rfl⟩
    exact ⟨_, ⟨h, h', rfl⟩, h2, rfl⟩

theorem rsEccPlan_eq_ok {n : BitVec 8} {c : InFlight} {p : OneSource} :
    rsEccPlan n c = .ok p ↔ (1 ≤ n.toNat ∧ n.toNat ≤ Config.rsMaxDegree) ∧ SourceOk 0 c.arg0 ∧ DestOk n.toNat c.arg2 ∧
      p = ⟨sourceSpan c.arg0, ⟨destAddr c.arg2, n.toNat⟩⟩ := by
  simp only [rsEccPlan, bind_eq_ok, checkDegree_eq_ok, checkSource_eq_ok, checkDest_eq_ok, SourceOk, DestOk]
  constructor
  · rintro ⟨_, ⟨h, h', rfl⟩, _, ⟨h0, h0', rfl⟩, _, ⟨h2, rfl⟩, ⟨⟩⟩
    exact ⟨⟨h, h'⟩, ⟨h0, h0'⟩, h2, rfl⟩
  · rintro ⟨⟨h, h'⟩, ⟨h0, h0'⟩, h2, rfl⟩
    exact ⟨_, ⟨h, h', rfl⟩, _, ⟨h0, h0', rfl⟩, _, ⟨h2, rfl⟩, rfl⟩

theorem reportsArgIdx_polyMulPlan (c : InFlight) : ReportsArgIdx (polyMulPlan c) :=
  reportsArgIdx_bind (reportsArgIdx_checkSource (by decide) _ _) fun _ =>
    reportsArgIdx_bind (reportsArgIdx_checkSource (by decide) _ _) fun _ =>
      reportsArgIdx_bind (reportsArgIdx_checkDest _ _) fun _ => reportsArgIdx_pure _

theorem reportsArgIdx_polyModPlan (c : InFlight) : ReportsArgIdx (polyModPlan c) :=
  reportsArgIdx_bind (reportsArgIdx_checkSource (by decide) _ _) fun _ =>
    reportsArgIdx_bind (reportsArgIdx_checkSource (by decide) _ _) fun _ =>
      reportsArgIdx_bind (reportsArgIdx_checkDest _ _) fun _ => reportsArgIdx_pure _

theorem reportsArgIdx_rsGenPlan (n : BitVec 8) (c : InFlight) : ReportsArgIdx (rsGenPlan n c) :=
  reportsArgIdx_bind (reportsArgIdx_checkDegree n) fun _ => reportsArgIdx_checkDest _ _

theorem reportsArgIdx_rsEccPlan (n : BitVec 8) (c : InFlight) : ReportsArgIdx (rsEccPlan n c) :=
  reportsArgIdx_bind (reportsArgIdx_checkDegree n) fun _ =>
    reportsArgIdx_bind (reportsArgIdx_checkSource (by decide) _ _) fun _ =>
      reportsArgIdx_bind (reportsArgIdx_checkDest _ _) fun _ => reportsArgIdx_pure _

end Sys2Proof.OperandChecks
end

section
/-! PROOF. What each command can do, said once: a next state of `exec` is an error report on the state as it stood, with no
destination, or `finish` of the state with the effects that the command's rule names. -/

namespace Sys2Proof.CommandEffects

open Sys2Proof Sys2Proof.Machine Sys2Proof.OperandChecks

/-! ## The effects of a command's rule -/

/-- The result bytes `bs` at `dst`, and their number in RES0 (R119, R120, R145, R146). -/
def storeResult (s : State) (dst : Span) (bs : List Byte) : State :=
  { s.writeDest dst bs with res0 := word dst.len }

/-- TPL.LOAD (R175). -/
def loadTemplate (s : State) (ver : BitVec 8) (lvl : BitVec 4) : State :=
  { s with
    matrix := s.prototype ver.toNat
    tplCache := cachePublish s.tplCache ver.toNat (s.prototype ver.toNat)
    version := ver.setWidth 6
    width := BitVec.ofNat 8 (symbolWidth ver.toNat)
    level := lvl.setWidth 2
    phase := .template
    mask := 0xF
    fmt := 0
    capacity := BitVec.ofNat 16 (s.prototype ver.toNat).dataModules
    placed := 0
    scored := 0
    score := noScores
    pen := noPenalties
    res0 := word (symbolWidth ver.toNat)
    res1 := word (s.prototype ver.toNat).dataModules }

/-- PLACE (R195). -/
def placeCodewords (s : State) (bs : List Byte) : State :=
  { s with
    matrix := placeBits (zigzag s.matrix s.width.toNat) (sequenceBits bs) s.matrix
    placed := BitVec.ofNat 16 (8 * bs.length)
    phase := .placed
    res0 := word (8 * bs.length)
    res1 := word (s.capacity.toNat - 8 * bs.length) }

/-- MASK.SCORE K (R227). -/
def scoreMask (s : State) (k : BitVec 3) : State :=
  { s with
    pen := setPerMask s.pen k (s.candidatePenalty k)
    score := setPerMask s.score k (s.candidatePenalty k).total
    scored := s.scored ||| (1#8 <<< k.toNat)
    res0 := (s.candidatePenalty k).total }

/-- MASK.OPT (R228), with the candidates' sub-scores, their sums and the winner. -/
def applyBestMask (s : State) (pen : Vector Penalty 8) (score : Vector Word 8) (best : BitVec 3) : State :=
  { s.applyMask best with
    pen := pen
    score := score
    scored := 0xFF
    res0 := best.setWidth 32
    res1 := perMask score best }

/-- MASK.FORCE K (R229). -/
def forceMask (s : State) (k : BitVec 3) : State :=
  { s.applyMask k with
    res0 := k.setWidth 32
    res1 := (formatWord (levelIndicator s.level) k).setWidth 32 }

/-- The command `i` in flight as `c` writes DMEM at `dst`, inside it. -/
def StoresAt (s : State) (c : InFlight) (i : Instr) (dst : Span) : Prop :=
  destinationOf s c i = some dst ∧ dst.addr + dst.len ≤ Config.dmemSize

/-- A degree that RS.GEN and RS.ECC accept (R145, R146). -/
def DegreeOk (n : BitVec 8) : Prop := 1 ≤ n.toNat ∧ n.toNat ≤ Config.rsMaxDegree

/-- A version that TPL.LOAD accepts (R175). -/
def VersionOk (ver : BitVec 8) : Prop := 1 ≤ ver.toNat ∧ ver.toNat ≤ 40

/-- `u` is `s` with the effects of the command `i`, in flight as `c`, whose checks pass. -/
def Effects (s : State) (c : InFlight) (i : Instr) (u : State) : Prop :=
  match i with
  | .nop => u = s
  | .gfAdd _ _ | .gfSub _ _ | .gfMul _ _ | .gfDiv _ _ | .gfPow _ _ | .gfExp _ | .gfLog _ => ∃ v, u = { s with res0 := v }
  | .polyMul | .polyMod => ∃ dst bs, StoresAt s c i dst ∧ bs.length = dst.len ∧ u = storeResult s dst bs
  | .rsGen n => DegreeOk n ∧ ∃ dst, StoresAt s c i dst ∧ dst.len = n.toNat + 1 ∧
      u = storeResult (s.publishGenerator n.toNat) dst (s.generator n.toNat)
  | .rsEcc n => DegreeOk n ∧ ∃ dst data, StoresAt s c i dst ∧ dst.len = n.toNat ∧
      u = storeResult (s.publishGenerator n.toNat) dst (eccWith (s.generator n.toNat) data n.toNat)
  | .tplLoad ver lvl => VersionOk ver ∧ u = loadTemplate s ver lvl
  | .place => s.phase = .template ∧ ∃ bs, 8 * bs.length ≤ s.capacity.toNat ∧ u = placeCodewords s bs
  | .maskScore k => s.phase = .placed ∧ u = scoreMask s k
  | .maskOpt => s.phase = .placed ∧ ∃ pen score, (∀ k, perMask pen k = s.candidatePenalty k) ∧
      (∀ k, perMask score k = (perMask pen k).total) ∧ u = applyBestMask s pen score (bestMask score)
  | .maskForce k => s.phase = .placed ∧ u = forceMask s k

/-! ## Every answer is a report or a completed effect -/

/-- Every next state of `r` is an error report on `s`, of a command without a destination, or a completed state of `P`. -/
def Answers (s : State) (dst : Option Span) (P : State → Prop) (r : Result) : Prop :=
  ∀ t, r = .next t → (∃ e, ArgIdxOk e ∧ dst = none ∧ t = s.raise e) ∨ ∃ u, P u ∧ t = u.finish

section
variable {s : State} {dst : Option Span} {P : State → Prop}

theorem answers_raise {e : CommandError} (hdst : dst = none) (he : ArgIdxOk e) : Answers s dst P (.next (s.raise e)) := by
  rintro t ⟨⟩
  exact .inl ⟨e, he, hdst, rfl⟩

theorem answers_fail {name : ErrorName} {info : Word} (hdst : dst = none) : Answers s dst P (s.fail name 0 info) :=
  answers_raise hdst (argIdxOk_zero name info)

theorem answers_succeed {u : State} (h : P u) : Answers s dst P u.succeed :=
  fun _ ht => .inr ⟨u, h, State.succeed_eq_next.mp ht⟩

theorem answers_readSource {sp : Span} {k : List Byte → Result}
    (h : ∀ bs, s.dmem.readBytes sp.addr sp.len = some bs → Answers s dst P (k bs)) : Answers s dst P (s.readSource sp k) := by
  intro t ht
  obtain ⟨bs, hbs, hk⟩ := State.readSource_eq_next.mp ht
  exact h bs hbs t hk

theorem answers_ite {p : Prop} [Decidable p] {r r' : Result} (h : p → Answers s dst P r)
    (h' : ¬ p → Answers s dst P r') : Answers s dst P (if p then r else r') := by
  split
  · exact h ‹_›
  · exact h' ‹_›

end

theorem length_polymul {a b : List Byte} (ha : 1 ≤ a.length) : (polymul a b).length = a.length + b.length - 1 := by
  obtain ⟨x, a, rfl⟩ := List.exists_cons_of_length_pos ha
  rw [ReedSolomon.length_polymul_cons, List.length_cons]
  omega

theorem length_polymod (p d : List Byte) : (polymod p d).length = d.length - 1 := by
  unfold polymod
  rw [ReedSolomon.length_synthDivide]
  split
  · simp; omega
  · omega

/-- POLY.MOD has a destination exactly when its operands pass and the divisor does not say that it is not monic (log 12). -/
theorem destinationOf_polyMod {s : State} {c : InFlight} {p : TwoSources} (h : polyModPlan c = .ok p) :
    destinationOf s c .polyMod =
      if s.dmem.read p.b.addr = none ∨ s.dmem.read p.b.addr = some 1 then some p.dst else none := by
  simp only [destinationOf, h]
  cases s.dmem.read p.b.addr with
  | none => exact (if_pos (.inl rfl)).symm
  | some d => by_cases hd : d = 1 <;> simp [hd]

/-- "for k in 0 .. 7" gives each mask its own value (R228). -/
theorem perMask_forEachMask {α : Type} (f : BitVec 3 → α) (k : BitVec 3) : perMask (forEachMask f) k = f k := by
  match k with
  | 0#3 | 1#3 | 2#3 | 3#3 | 4#3 | 5#3 | 6#3 | 7#3 => rfl

/-- The first byte read is the byte at the address. -/
theorem read_eq_headD_of_readBytes {m : Memory} {a n : Nat} {bs : List Byte} (h : m.readBytes a n = some bs) (hn : 1 ≤ n) :
    m.read a = some (bs.headD 0) := by
  obtain ⟨n, rfl⟩ := Nat.exists_eq_add_of_le' hn
  simp only [Memory.readBytes] at h
  split at h
  · cases h
    assumption
  · cases h

/-- The command `i` reads the command in flight, and then answers with its effects or a report. -/
def AnswersWithEffects (i : Instr) (s : State) : Prop :=
  ∃ k, exec i s = s.withCommand k ∧ ∀ c, Answers s (destinationOf s c i) (Effects s c i) (k c)

theorem answersWithEffects_polyMul (s : State) : AnswersWithEffects .polyMul s := by
  refine ⟨_, rfl, fun c => ?_⟩
  split
  next e he => exact answers_raise (by rw [destinationOf, he]; rfl) (reportsArgIdx_polyMulPlan c e he)
  next p hp =>
    obtain ⟨⟨ha, -⟩, -, hdst, rfl⟩ := polyMulPlan_eq_ok.mp hp
    refine answers_readSource fun a hra => answers_readSource fun b hrb => answers_succeed
      ⟨(polyMulSpans c).dst, polymul a b, ⟨by rw [destinationOf, hp]; rfl, hdst⟩, ?_, rfl⟩
    rw [length_polymul (by rwa [Memory.length_readBytes hra]), Memory.length_readBytes hra, Memory.length_readBytes hrb]
    rfl

theorem answersWithEffects_polyMod (s : State) : AnswersWithEffects .polyMod s := by
  refine ⟨_, rfl, fun c => ?_⟩
  split
  next e he => exact answers_raise (by simp only [destinationOf, he]) (reportsArgIdx_polyModPlan c e he)
  next p hp =>
    obtain ⟨-, ⟨hb, -⟩, hdst, rfl⟩ := polyModPlan_eq_ok.mp hp
    refine answers_readSource fun a hra => answers_readSource fun d hrd => ?_
    have hhead := read_eq_headD_of_readBytes hrd (Nat.one_le_of_lt hb)
    refine answers_ite (fun hd => answers_fail ?_) fun hd => answers_succeed
      ⟨(polyModSpans c).dst, polymod a d, ⟨?_, hdst⟩, ?_, rfl⟩
    · rw [destinationOf_polyMod hp, if_neg]
      simpa only [hhead, reduceCtorEq, false_or, Option.some.injEq] using hd
    · rw [destinationOf_polyMod hp, if_pos]
      simpa only [hhead, reduceCtorEq, false_or, Option.some.injEq, not_not] using hd
    · rw [length_polymod, Memory.length_readBytes hrd]
      rfl

theorem answersWithEffects_rsGen (n : BitVec 8) (s : State) : AnswersWithEffects (.rsGen n) s := by
  refine ⟨_, rfl, fun c => ?_⟩
  split
  next e he => exact answers_raise (by rw [destinationOf, he]; rfl) (reportsArgIdx_rsGenPlan n c e he)
  next dst hplan =>
    obtain ⟨hn, hdst, rfl⟩ := rsGenPlan_eq_ok.mp hplan
    exact answers_succeed ⟨hn, ⟨destAddr c.arg2, n.toNat + 1⟩, ⟨by rw [destinationOf, hplan]; rfl, hdst⟩, rfl, rfl⟩

theorem answersWithEffects_rsEcc (n : BitVec 8) (s : State) : AnswersWithEffects (.rsEcc n) s := by
  refine ⟨_, rfl, fun c => ?_⟩
  split
  next e he => exact answers_raise (by rw [destinationOf, he]; rfl) (reportsArgIdx_rsEccPlan n c e he)
  next p hplan =>
    obtain ⟨hn, -, hdst, rfl⟩ := rsEccPlan_eq_ok.mp hplan
    exact answers_readSource fun data _ => answers_succeed
      ⟨hn, ⟨destAddr c.arg2, n.toNat⟩, data, ⟨by rw [destinationOf, hplan]; rfl, hdst⟩, rfl, rfl⟩

theorem answersWithEffects_tplLoad (ver : BitVec 8) (lvl : BitVec 4) (s : State) :
    AnswersWithEffects (.tplLoad ver lvl) s :=
  ⟨_, rfl, fun _ => answers_ite (fun _ => answers_fail rfl) fun hver => answers_ite (fun _ => answers_fail rfl) fun _ =>
    answers_succeed ⟨by unfold VersionOk; omega, rfl⟩⟩

theorem answersWithEffects_place (s : State) : AnswersWithEffects .place s := by
  refine ⟨_, rfl, fun c => answers_ite (fun _ => answers_fail rfl) fun hphase => ?_⟩
  split
  next e he => exact answers_raise rfl (reportsArgIdx_checkSource (by decide) _ _ e he)
  next src hsrc =>
    refine answers_ite (fun _ => answers_fail rfl) fun hroom => answers_readSource fun bs hbs => ?_
    rw [← Memory.length_readBytes hbs] at hroom ⊢
    exact answers_succeed ⟨not_not.mp hphase, bs, not_lt.mp hroom, rfl⟩

/-- Every command: its checks before its effects, and no report where there is a destination. -/
theorem answersWithEffects (i : Instr) (s : State) : AnswersWithEffects i s := by
  cases i with
  | nop => exact ⟨_, rfl, fun _ => answers_succeed rfl⟩
  | gfAdd | gfSub | gfMul => exact ⟨_, rfl, fun _ => answers_succeed ⟨_, rfl⟩⟩
  | gfDiv | gfPow =>
    refine ⟨_, rfl, fun _ => ?_⟩
    split
    · exact answers_fail rfl
    · exact answers_succeed ⟨_, rfl⟩
  | gfExp | gfLog =>
    exact ⟨_, rfl, fun _ => answers_ite (fun _ => answers_fail rfl) fun _ => answers_succeed ⟨_, rfl⟩⟩
  | polyMul => exact answersWithEffects_polyMul s
  | polyMod => exact answersWithEffects_polyMod s
  | rsGen n => exact answersWithEffects_rsGen n s
  | rsEcc n => exact answersWithEffects_rsEcc n s
  | tplLoad ver lvl => exact answersWithEffects_tplLoad ver lvl s
  | place => exact answersWithEffects_place s
  | maskOpt =>
    exact ⟨_, rfl, fun _ => answers_ite (fun _ => answers_fail rfl) fun hphase =>
      answers_succeed ⟨not_not.mp hphase, _, _, perMask_forEachMask _, perMask_forEachMask _, rfl⟩⟩
  | maskScore | maskForce =>
    exact ⟨_, rfl, fun _ => answers_ite (fun _ => answers_fail rfl) fun hphase =>
      answers_succeed ⟨not_not.mp hphase, rfl⟩⟩

theorem exec_eq_next {i : Instr} {s t : State} (h : exec i s = .next t) :
    ∃ c, s.inFlight = some c ∧ ((∃ e, ArgIdxOk e ∧ destinationOf s c i = none ∧ t = s.raise e) ∨
      ∃ u, Effects s c i u ∧ t = u.finish) := by
  obtain ⟨k, hexec, hk⟩ := answersWithEffects i s
  rw [hexec] at h
  obtain ⟨c, hc, ht⟩ := State.withCommand_eq_next.mp h
  exact ⟨c, hc, hk c t ht⟩

end Sys2Proof.CommandEffects
end

section
/-! PROOF. The caches (R43, R44, R142): a correct cache answers what the rule computes, and every command's effects keep them
correct. -/

namespace Sys2Proof.CorrectCaches

open Sys2Proof Sys2Proof.Machine Sys2Proof.CommandEffects

/-! ## Lookup and publication -/

theorem mem_of_cacheFind_eq_some {α : Type} {l : List (Nat × α)} {k : Nat} {a : α} (h : cacheFind l k = some a) :
    (k, a) ∈ l := by
  induction l with
  | nil => cases h
  | cons x l ih =>
    rw [cacheFind] at h
    split at h
    next hk =>
      obtain rfl := Option.some.inj h
      exact hk ▸ List.mem_cons_self
    next => exact List.mem_cons_of_mem _ (ih h)

/-- A cache that holds only the rule's values answers the rule's value, present or not. -/
theorem cacheFind_getD_of_correct {α : Type} {l : List (Nat × α)} {rule : Nat → α} (h : ∀ e ∈ l, e.2 = rule e.1) (k : Nat) :
    (cacheFind l k).getD (rule k) = rule k := by
  cases hk : cacheFind l k with
  | none => rfl
  | some a => exact h _ (mem_of_cacheFind_eq_some hk)

/-- Publishing adds no entry but its own. -/
theorem mem_cachePublish {α : Type} {l : List (Nat × α)} {k : Nat} {a : α} {e : Nat × α} (h : e ∈ cachePublish l k a) :
    e = (k, a) ∨ e ∈ l := by
  induction l with
  | nil => exact .inl (List.mem_singleton.mp h)
  | cons x l ih =>
    rw [cachePublish] at h
    split_ifs at h
    · exact List.mem_cons.mp h
    · exact .inr h
    · rcases List.mem_cons.mp h with rfl | h
      · exact .inr List.mem_cons_self
      · exact (ih h).imp_right (List.mem_cons_of_mem _)

/-- The new entry goes before the first greater key. -/
theorem risingKeys_cachePublish {α : Type} {l : List (Nat × α)} (h : risingKeys l) (k : Nat) (a : α) :
    risingKeys (cachePublish l k a) := by
  unfold risingKeys at h ⊢
  induction l with
  | nil => exact List.pairwise_singleton _ _
  | cons x l ih =>
    obtain ⟨hx, hl⟩ := List.pairwise_cons.mp h
    rw [cachePublish]
    split_ifs with hlt heq
    · refine List.pairwise_cons.mpr ⟨fun y hy => ?_, h⟩
      rcases List.mem_cons.mp hy with rfl | hy
      · exact hlt
      · exact hlt.trans (hx y hy)
    · exact h
    · refine List.pairwise_cons.mpr ⟨fun y hy => ?_, ih hl⟩
      rcases mem_cachePublish hy with rfl | hy
      · exact lt_of_le_of_ne (not_lt.mp hlt) (Ne.symm heq)
      · exact hx y hy

/-! ## What correct caches answer -/

theorem generator_of_cachesCorrect {s : State} (h : CachesCorrect s) (n : Nat) : s.generator n = gen n := by
  obtain ⟨-, -, hgen, -, -⟩ := h
  exact cacheFind_getD_of_correct (fun e he => (hgen e he).2.2) n

theorem prototype_of_cachesCorrect {s : State} (h : CachesCorrect s) (v : Nat) : s.prototype v = template v := by
  obtain ⟨-, -, -, htpl, -⟩ := h
  exact cacheFind_getD_of_correct (fun e he => (htpl e he).2.2) v

/-! ## Correct caches stay correct -/

theorem cachesCorrect_reset : CachesCorrect State.reset := by
  refine ⟨List.pairwise_singleton _ _, List.Pairwise.nil, fun e he => ?_, fun e he => (nomatch he), rfl⟩
  obtain rfl := List.mem_singleton.mp he
  exact ⟨le_rfl, by decide, rfl⟩

/-- Whether the caches are correct depends on nothing else. -/
theorem cachesCorrect_congr {s t : State} (hgen : t.genCache = s.genCache) (htpl : t.tplCache = s.tplCache)
    (h : CachesCorrect s) : CachesCorrect t := by
  unfold CachesCorrect
  rw [hgen, htpl]
  exact h

theorem cachesCorrect_publishGenerator {s : State} (h : CachesCorrect s) {n : BitVec 8} (hn : DegreeOk n) :
    CachesCorrect (s.publishGenerator n.toNat) := by
  have hvalue := generator_of_cachesCorrect h n.toNat
  obtain ⟨hrising, hrising', hgen, htpl, hone⟩ := h
  refine ⟨risingKeys_cachePublish hrising _ _, hrising', fun e he => ?_, htpl, ?_⟩
  · rcases mem_cachePublish he with rfl | he
    · exact ⟨hn.1, hn.2, hvalue⟩
    · exact hgen e he
  · by_cases h1 : 1 = n.toNat
    · rw [State.publishGenerator_genCache, h1, cacheFind_publish_same _ _ _ hrising, ← h1, hone]
      rfl
    · rw [State.publishGenerator_genCache, cacheFind_publish_other h1, hone]

theorem cachesCorrect_loadTemplate {s : State} (h : CachesCorrect s) {ver : BitVec 8} (hver : VersionOk ver)
    (lvl : BitVec 4) : CachesCorrect (loadTemplate s ver lvl) := by
  have hvalue := prototype_of_cachesCorrect h ver.toNat
  obtain ⟨hrising, hrising', hgen, htpl, hone⟩ := h
  refine ⟨hrising, risingKeys_cachePublish hrising' _ _, hgen, fun e he => ?_, hone⟩
  rcases mem_cachePublish he with rfl | he
  · exact ⟨hver.1, hver.2, hvalue⟩
  · exact htpl e he

/-- A command's effects keep the caches correct: RS.GEN and RS.ECC publish a generator, TPL.LOAD a template. -/
theorem cachesCorrect_of_effects {s u : State} {c : InFlight} {i : Instr} (hs : CachesCorrect s) (h : Effects s c i u) :
    CachesCorrect u := by
  cases i with
  | nop => exact h ▸ hs
  | gfAdd | gfSub | gfMul | gfDiv | gfPow | gfExp | gfLog =>
    obtain ⟨v, rfl⟩ := h
    exact hs
  | polyMul | polyMod =>
    obtain ⟨dst, bs, -, -, rfl⟩ := h
    exact hs
  | rsGen n =>
    obtain ⟨hn, dst, -, -, rfl⟩ := h
    exact cachesCorrect_congr rfl rfl (cachesCorrect_publishGenerator hs hn)
  | rsEcc n =>
    obtain ⟨hn, dst, data, -, -, rfl⟩ := h
    exact cachesCorrect_congr rfl rfl (cachesCorrect_publishGenerator hs hn)
  | tplLoad ver lvl =>
    obtain ⟨hver, rfl⟩ := h
    exact cachesCorrect_loadTemplate hs hver lvl
  | place =>
    obtain ⟨-, bs, -, rfl⟩ := h
    exact hs
  | maskOpt =>
    obtain ⟨-, pen, score, -, -, rfl⟩ := h
    exact cachesCorrect_congr (s := s) rfl rfl hs
  | maskScore | maskForce =>
    obtain ⟨-, rfl⟩ := h
    exact cachesCorrect_congr (s := s) rfl rfl hs

end Sys2Proof.CorrectCaches
end

section
/-! PROOF. The steps of the machine, said once: a completion, a host access, or the passing of one host step; and every change
that a host access can make. -/

namespace Sys2Proof.Steps

open Sys2Proof Sys2Proof.Machine

/-- A host access that resets the block: the reset input, or a CTRL write with SRST = 1 (R280, R281). -/
def Resets (a : HostAccess) : Prop := a = .hardReset ∨ ∃ v, a = .write 0x004 4 v ∧ v.getLsbD 1 = true

/-- What the host's access `a` can make of the state `s`. -/
inductive HostChange (a : HostAccess) (s : State) : State → Prop where
  | nothing : HostChange a s s
  | readData (v : Word) : HostChange a s { s with readData := some v }
  | dmem (addr : Nat) (bs : List Byte) (h : addr + bs.length ≤ Config.dmemSize) :
      HostChange a s { s with dmem := s.dmem.writeBytes addr bs }
  | reset (h : Resets a) (m : Memory) (hm : s.dmem.wf = true → m.wf = true) : HostChange a s { s.resetBlock with dmem := m }
  | control (b : Bool) : HostChange a s { s with ie := b }
  | status (v : Word) : HostChange a s (s.writeStatus v)
  | overflow : HostChange a s { s with ovf := true }
  | accept (w : Word) : HostChange a s (s.accept w)
  | args (x y z : Word) : HostChange a s { s with arg0 := x, arg1 := y, arg2 := z }

theorem length_littleEndianBytes (v : Word) (n : Nat) : (littleEndianBytes v n).length = n := by
  rw [littleEndianBytes, List.length_map, List.length_range]

/-- The soft reset's DMEM: the old one, or that with the aborted command's destination unwritten (R281). -/
theorem softReset_eq (s : State) : ∃ m, s.softReset = { s.resetBlock with dmem := m } ∧ (s.dmem.wf = true → m.wf = true) := by
  unfold State.softReset
  split
  · exact ⟨s.dmem, rfl, id⟩
  · exact ⟨_, rfl, Memory.eraseBytes_wf⟩

theorem hostChange_writeRegister (s : State) (o : Nat) (v : Word) :
    HostChange (.write o 4 v) s (s.writeRegister o v) := by
  unfold State.writeRegister State.writeCtrl State.writeCmd
  split_ifs with h4 hsrst
  · subst h4
    obtain ⟨m, hreset, hm⟩ := softReset_eq s
    exact hreset ▸ .reset (.inr ⟨v, rfl, hsrst⟩) m hm
  · exact .control _
  · exact .status v
  · exact .overflow
  · exact .accept v
  · exact .args v s.arg1 s.arg2
  · exact .args s.arg0 v s.arg2
  · exact .args s.arg0 s.arg1 v
  · exact .nothing

theorem hostChange_of_hostWrite {o n : Nat} {v : Word} {s t : State} (h : hostWrite o n v s = .next t) :
    HostChange (.write o n v) s t := by
  unfold hostWrite at h
  split_ifs at h with _ _ hform _ _ hnatural
  all_goals cases h
  · exact .nothing
  · exact hform.1 ▸ hostChange_writeRegister s o v
  · refine .dmem _ _ ?_
    rw [length_littleEndianBytes]
    omega
  · exact .nothing

theorem hostChange_of_performAccess {a : HostAccess} {s t : State} (h : performAccess a s = .next t) :
    HostChange a s t := by
  cases a with
  | read o n =>
    obtain ⟨v, rfl⟩ := hostRead_eq_next h
    exact .readData v
  | write o n v => exact hostChange_of_hostWrite h
  | hardReset =>
    cases h
    exact .reset (.inl rfl) s.dmem id
  | idle =>
    cases h
    exact .nothing

/-- A host step with no access left lets one host step pass. -/
theorem step_of_nil {s : State} (hq : s.hostQueue = []) (hd : ∀ c, s.inFlight = some c → 0 < c.delay) :
    step s = .next (waited s []) := by
  cases hc : s.inFlight with
  | none =>
    have hpass : waited s [] = s := by
      cases s
      simp only at hq hc
      subst hq hc
      rfl
    rw [hpass, ← hostStep_of_nil hq]
    simp only [step, hc]
  | some c =>
    obtain ⟨n, hn⟩ : ∃ n, c.delay = n + 1 := Nat.exists_eq_add_of_lt (hd c hc) |>.imp fun _ h => by omega
    simp [step, hc, hn, hostStep, waitOneStep, waited, hq]

/-- Whatever step answers a next state completes the command in flight, lets a host step pass, or makes an access. -/
theorem step_cases {s t : State} (h : step s = .next t) :
    (∃ c, s.inFlight = some c ∧ c.delay = 0 ∧ completeCommand c s = .next t) ∨ t = waited s [] ∨
      ∃ a rest, HostMovesNext s a rest ∧ HostChange a (waited s rest) t := by
  by_cases hd : ∀ c, s.inFlight = some c → 0 < c.delay
  · right
    cases hq : s.hostQueue with
    | nil =>
      rw [step_of_nil hq hd] at h
      cases h
      exact .inl rfl
    | cons a rest =>
      have hmoves : HostMovesNext s a rest := ⟨hq, hd⟩
      rw [step_of_hostMovesNext hmoves] at h
      exact .inr ⟨a, rest, hmoves, hostChange_of_performAccess h⟩
  · push Not at hd
    obtain ⟨c, hc, hd⟩ := hd
    have hd := Nat.le_zero.mp hd
    exact .inl ⟨c, hc, hd, Encoding.step_of_delay_zero hc hd ▸ h⟩

end Sys2Proof.Steps
end

section
/-! PROOF. The `rsv` bits of a matrix (R40, R41): operations on colours keep them, and they decide the number of data modules. -/

namespace Sys2Proof.ReservedBits

open Sys2Proof Sys2Proof.Machine

theorem rsvMap_mapCells {f : Nat → Nat → Cell → Cell} (hf : ∀ r c x, (f r c x).rsv = x.rsv) (m : Matrix) :
    (m.mapCells f).rsvMap = m.rsvMap := by
  have hrow : ∀ (r : Nat) (row : List Cell), (row.mapIdx (f r)).map Cell.rsv = row.map Cell.rsv := fun r row =>
    List.ext_getElem (by simp) fun c _ _ => by simp [hf]
  exact List.ext_getElem (by simp [Matrix.rsvMap, Matrix.mapCells]) fun r _ _ => by
    simp [Matrix.rsvMap, Matrix.mapCells, hrow]

theorem rsvMap_setDark (m : Matrix) (r c : Nat) (d : Bool) : (m.setDark r c d).rsvMap = m.rsvMap := by
  have hrow : ∀ row : List Cell, (row.modify c fun x => { x with dark := d }).map Cell.rsv = row.map Cell.rsv := fun row =>
    List.ext_getElem (by simp) fun i _ _ => by simp [List.getElem_modify, apply_ite Cell.rsv]
  exact List.ext_getElem (by simp [Matrix.rsvMap, Matrix.setDark]) fun i _ _ => by
    simp [Matrix.rsvMap, Matrix.setDark, List.getElem_modify, apply_ite (List.map Cell.rsv), hrow]

theorem rsvMap_placeBits (z : List Coord) (bits : List Bool) (m : Matrix) : (placeBits z bits m).rsvMap = m.rsvMap :=
  List.foldlRecOn (motive := fun m' : Matrix => m'.rsvMap = m.rsvMap) _ _ rfl
    fun m' hm x _ => (rsvMap_setDark m' x.1.1 x.1.2 x.2).trans hm

theorem rsvMap_candidate (k : BitVec 3) (m : Matrix) : (candidate k m).rsvMap = m.rsvMap :=
  rsvMap_mapCells (fun r c x => by cases !x.rsv && maskPredicate k r c <;> rfl) m

theorem rsvMap_writeFormat (w : Nat) (fw : BitVec 15) (m : Matrix) : (writeFormat w fw m).rsvMap = m.rsvMap := by
  refine rsvMap_mapCells (fun r c x => ?_) m
  cases formatBitAt w r c with
  | some i => rfl
  | none => exact (apply_ite Cell.rsv _ _ _).trans (ite_self _)

/-- The data modules are the 0 bits of the `rsv` map. -/
theorem dataModules_congr {m m' : Matrix} (h : m.rsvMap = m'.rsvMap) : m.dataModules = m'.dataModules := by
  have hmap : ∀ m : Matrix, m.dataModules = (m.rsvMap.map fun row => row.countP (!·)).sum := by
    intro m
    simp [Matrix.dataModules, Matrix.rsvMap, Function.comp_def, List.countP_map]
  rw [hmap, hmap, h]

theorem dataModules_template_le (v : Nat) : (template v).dataModules ≤ symbolWidth v * symbolWidth v := by
  rw [template, templateWith, ZigzagOrder.dataModules_tabulate]
  refine (List.length_filter_le _ _).trans_eq ?_
  rw [List.length_product, List.length_range]

end Sys2Proof.ReservedBits
end

section
/-! PROOF. The invariant (R23 to R47, R250, R251, R280): each of its four parts through a command's effects, an error report and
every change the host can make. -/

namespace Sys2Proof.Invariant

open Sys2Proof Sys2Proof.Machine Sys2Proof.OperandChecks Sys2Proof.CommandEffects Sys2Proof.CorrectCaches
open Sys2Proof.ReservedBits Sys2Proof.Steps Sys2Proof.Completion

/-! ## DMEM and the caches -/

/-- With correct caches a command writes its whole destination and nothing else of DMEM, or has none. -/
theorem dmem_of_effects {s u : State} {c : InFlight} {i : Instr} (hs : CachesCorrect s) (h : Effects s c i u) :
    (destinationOf s c i = none ∧ u.dmem = s.dmem) ∨
      ∃ dst bs, StoresAt s c i dst ∧ bs.length = dst.len ∧ u.dmem = s.dmem.writeBytes dst.addr bs := by
  cases i with
  | nop => exact .inl ⟨rfl, congrArg State.dmem h⟩
  | gfAdd | gfSub | gfMul | gfDiv | gfPow | gfExp | gfLog =>
    obtain ⟨v, rfl⟩ := h
    exact .inl ⟨rfl, rfl⟩
  | polyMul | polyMod =>
    obtain ⟨dst, bs, hdst, hlen, rfl⟩ := h
    exact .inr ⟨dst, bs, hdst, hlen, rfl⟩
  | rsGen n =>
    obtain ⟨hn, dst, hdst, hlen, rfl⟩ := h
    refine .inr ⟨dst, _, hdst, ?_, rfl⟩
    rw [generator_of_cachesCorrect hs, ReedSolomon.length_gen hn.1, hlen]
  | rsEcc n =>
    obtain ⟨hn, dst, data, hdst, hlen, rfl⟩ := h
    refine .inr ⟨dst, _, hdst, ?_, rfl⟩
    rw [generator_of_cachesCorrect hs, hlen]
    exact ReedSolomon.length_ecc data hn.1
  | tplLoad =>
    obtain ⟨-, rfl⟩ := h
    exact .inl ⟨rfl, rfl⟩
  | place =>
    obtain ⟨-, bs, -, rfl⟩ := h
    exact .inl ⟨rfl, rfl⟩
  | maskOpt =>
    obtain ⟨-, pen, score, -, -, rfl⟩ := h
    exact .inl ⟨rfl, rfl⟩
  | maskScore | maskForce =>
    obtain ⟨-, rfl⟩ := h
    exact .inl ⟨rfl, rfl⟩

theorem storageInv_of_effects {s u : State} {c : InFlight} {i : Instr} (hs : StorageInv s) (h : Effects s c i u) :
    StorageInv u := by
  obtain ⟨hwf, hcaches⟩ := hs
  refine ⟨?_, cachesCorrect_of_effects hcaches h⟩
  obtain ⟨-, hdmem⟩ | ⟨dst, bs, ⟨-, hdst⟩, hlen, hdmem⟩ := dmem_of_effects hcaches h
  · rw [hdmem]
    exact hwf
  · rw [hdmem]
    exact Memory.writeBytes_wf hwf (hlen ▸ hdst)

/-! ## The lifecycle -/

/-- No effect of a command is on a register of the host or of the lifecycle. -/
theorem hasCommandEffects_of_effects {s u : State} {c : InFlight} {i : Instr} (h : Effects s c i u) :
    HasCommandEffects s u := by
  cases i with
  | nop =>
    obtain rfl : u = s := h
    rfl
  | gfAdd | gfSub | gfMul | gfDiv | gfPow | gfExp | gfLog =>
    obtain ⟨v, rfl⟩ := h
    rfl
  | polyMul | polyMod =>
    obtain ⟨dst, bs, -, -, rfl⟩ := h
    rfl
  | rsGen n =>
    obtain ⟨-, dst, -, -, rfl⟩ := h
    rfl
  | rsEcc n =>
    obtain ⟨-, dst, data, -, -, rfl⟩ := h
    rfl
  | place =>
    obtain ⟨-, bs, -, rfl⟩ := h
    rfl
  | maskOpt =>
    obtain ⟨-, pen, score, -, -, rfl⟩ := h
    rfl
  | tplLoad | maskScore | maskForce =>
    obtain ⟨-, rfl⟩ := h
    rfl

/-- While BUSY no report stands, so ARGIDX is 0. -/
theorem errArgIdx_of_busy {s : State} (hs : LifecycleInv s) (hbusy : s.busy = true) : s.errArgIdx = 0 := by
  obtain ⟨-, hclear, -, -, -, -, hidx⟩ := hs
  obtain ⟨-, -, hcode, -⟩ := hclear hbusy
  by_contra hne
  obtain ⟨-, h | h⟩ := hidx hne <;> rw [hcode] at h <;> cases h

theorem lifecycleInv_finish {s u : State} (hs : LifecycleInv s) (hbusy : s.busy = true) (hu : HasCommandEffects s u) :
    LifecycleInv u.finish := by
  have hidx := errArgIdx_of_busy hs hbusy
  obtain ⟨-, hclear, -⟩ := hs
  obtain ⟨-, herr, hcode, hinfo⟩ := hclear hbusy
  rw [hu]
  refine ⟨fun h => ?_, nofun, fun _ => ⟨hcode, hinfo⟩, fun h => ?_, nofun, ?_, fun h => absurd hidx h⟩
  · exact Bool.false_ne_true (herr.symm.trans h.2)
  · exact absurd (herr.symm.trans h) Bool.false_ne_true
  · exact hcode ▸ by decide

theorem code_bounds (n : ErrorName) : n.code ≠ 0 ∧ n.code.toNat ≤ 0x0C := by
  cases n <;> decide

theorem lifecycleInv_raise {s : State} {e : CommandError} (hs : LifecycleInv s) (hbusy : s.busy = true)
    (he : ArgIdxOk e) : LifecycleInv (s.raise e) := by
  obtain ⟨-, hclear, -⟩ := hs
  obtain ⟨hdone, -⟩ := hclear hbusy
  obtain ⟨hne, hle⟩ := code_bounds e.name
  refine ⟨fun h => ?_, nofun, fun h => ?_, fun _ => hne, nofun, hle, fun h => ?_⟩
  · exact Bool.false_ne_true (hdone.symm.trans h.1)
  · exact absurd (hdone.symm.trans h) Bool.false_ne_true
  · exact (he h).imp_right (Or.imp (congrArg ErrorName.code) (congrArg ErrorName.code))

theorem lifecycleInv_reset : LifecycleInv State.reset :=
  ⟨nofun, nofun, nofun, nofun, nofun, by decide, fun h => absurd rfl h⟩

theorem lifecycleInv_writeStatus {s : State} (hs : LifecycleInv s) (v : Word) : LifecycleInv (s.writeStatus v) := by
  rw [State.writeStatus_eq]
  obtain ⟨hboth, hclear, hdone, herr, hword, hcode, hidx⟩ := hs
  refine ⟨fun h => hboth ?_, fun h => ?_, fun h => hdone ?_, fun h => herr ?_, hword, hcode, hidx⟩
  · exact ⟨Bool.and_elim_left h.1, Bool.and_elim_left h.2⟩
  · obtain ⟨hd, he, hrest⟩ := hclear h
    exact ⟨by simp [hd], by simp [he], hrest⟩
  · exact Bool.and_elim_left h
  · exact Bool.and_elim_left h

theorem lifecycleInv_accept (s : State) (w : Word) : LifecycleInv (s.accept w) := by
  refine ⟨nofun, fun _ => ⟨rfl, rfl, rfl, rfl⟩, nofun, nofun, fun c hc => ?_, Nat.zero_le _, fun h => absurd rfl h⟩
  obtain rfl := Option.some.inj hc
  rfl

theorem lifecycleInv_waited {s : State} (hs : LifecycleInv s) (rest : List HostAccess) : LifecycleInv (waited s rest) := by
  obtain ⟨hboth, hclear, hdone, herr, hword, hcode, hidx⟩ := hs
  refine ⟨hboth, fun h => hclear (waited_busy s rest ▸ h), hdone, herr, fun c hc => ?_, hcode, hidx⟩
  obtain ⟨c', hc', rfl⟩ := Option.map_eq_some_iff.mp hc
  exact hword c' hc'

/-! ## The symbol registers -/

theorem symbolInv_loadTemplate {s : State} (hc : CachesCorrect s) {ver : BitVec 8} (hver : VersionOk ver)
    (lvl : BitVec 4) : SymbolInv (loadTemplate s ver lvl) := by
  obtain ⟨h1, h40⟩ := hver
  have hversion : (ver.setWidth 6).toNat = ver.toNat := by rw [BitVec.toNat_setWidth]; omega
  have hwidth : symbolWidth ver.toNat ≤ 177 := by unfold symbolWidth; omega
  have hcap : (template ver.toNat).dataModules ≤ 177 * 177 :=
    (dataModules_template_le _).trans (Nat.mul_le_mul hwidth hwidth)
  rw [loadTemplate, prototype_of_cachesCorrect hc]
  refine ⟨nofun, fun _ => ⟨?_, ?_, ?_, ?_, ?_⟩, fun _ => ⟨?_, rfl⟩, Nat.zero_le _, rfl, fun _ => ⟨rfl, rfl⟩, nofun⟩
  · simpa only [hversion] using h1
  · simpa only [hversion] using h40
  · simp only [hversion, BitVec.toNat_ofNat]
    omega
  · simp only [hversion]
  · simp only [BitVec.toNat_ofNat]
    omega
  · simp only [hversion]

theorem symbolInv_placeCodewords {s : State} (hs : SymbolInv s) (hphase : s.phase = .template) {bs : List Byte}
    (hroom : 8 * bs.length ≤ s.capacity.toNat) : SymbolInv (placeCodewords s bs) := by
  obtain ⟨-, hloaded, -, -, -, hunmasked, -⟩ := hs
  obtain ⟨h1, h40, hwidth, hrsv, hcap⟩ := hloaded (by rw [hphase]; decide)
  have hrsv' := rsvMap_placeBits (zigzag s.matrix s.width.toNat) (sequenceBits bs) s.matrix
  have hplaced : (BitVec.ofNat 16 (8 * bs.length)).toNat = 8 * bs.length := by
    rw [BitVec.toNat_ofNat]
    omega
  refine ⟨nofun, fun _ => ⟨h1, h40, hwidth, hrsv'.trans hrsv, hcap.trans (dataModules_congr hrsv').symm⟩, nofun, ?_, ?_,
    fun _ => hunmasked (by rw [hphase]; decide), nofun⟩
  · exact hplaced.trans_le hroom
  · exact (congrArg (· % 8) hplaced).trans (Nat.mul_mod_right 8 _)

theorem symbolInv_applyMask {s : State} (hs : SymbolInv s) (hphase : s.phase = .placed) (k : BitVec 3) :
    SymbolInv (s.applyMask k) := by
  obtain ⟨-, hloaded, -, hplaced, hmod, -, -⟩ := hs
  obtain ⟨h1, h40, hwidth, hrsv, hcap⟩ := hloaded (by rw [hphase]; decide)
  have hrsv' : (s.applyMask k).matrix.rsvMap = s.matrix.rsvMap :=
    (rsvMap_writeFormat _ _ _).trans (rsvMap_candidate k s.matrix)
  have hmask : (k.setWidth 4).setWidth 3 = k := by bv_omega
  refine ⟨nofun, fun _ => ⟨h1, h40, hwidth, hrsv'.trans hrsv, hcap.trans (dataModules_congr hrsv').symm⟩, nofun, hplaced,
    hmod, fun h => absurd rfl h, fun _ => ⟨?_, ?_⟩⟩
  · rw [State.applyMask_mask]
    bv_omega
  · rw [State.applyMask_mask, State.applyMask_fmt, State.applyMask_level, hmask]

theorem symbolInv_of_effects {s u : State} {c : InFlight} {i : Instr} (hc : CachesCorrect s) (hs : SymbolInv s)
    (h : Effects s c i u) : SymbolInv u := by
  cases i with
  | nop => exact h ▸ hs
  | gfAdd | gfSub | gfMul | gfDiv | gfPow | gfExp | gfLog =>
    obtain ⟨v, rfl⟩ := h
    exact hs
  | polyMul | polyMod =>
    obtain ⟨dst, bs, -, -, rfl⟩ := h
    exact hs
  | rsGen n =>
    obtain ⟨-, dst, -, -, rfl⟩ := h
    exact hs
  | rsEcc n =>
    obtain ⟨-, dst, data, -, -, rfl⟩ := h
    exact hs
  | tplLoad ver lvl =>
    obtain ⟨hver, rfl⟩ := h
    exact symbolInv_loadTemplate hc hver lvl
  | place =>
    obtain ⟨hphase, bs, hroom, rfl⟩ := h
    exact symbolInv_placeCodewords hs hphase hroom
  | maskScore k =>
    obtain ⟨-, rfl⟩ := h
    exact hs
  | maskOpt =>
    obtain ⟨hphase, pen, score, -, -, rfl⟩ := h
    exact symbolInv_applyMask hs hphase (bestMask score)
  | maskForce k =>
    obtain ⟨hphase, rfl⟩ := h
    exact symbolInv_applyMask hs hphase k

theorem symbolInv_reset : SymbolInv State.reset :=
  ⟨fun _ => ⟨rfl, rfl, rfl, rfl⟩, fun h => absurd rfl h, nofun, Nat.zero_le _, rfl, fun _ => ⟨rfl, rfl⟩, nofun⟩

/-! ## The score registers -/

theorem perMask_setPerMask {α : Type} (v : Vector α 8) (k j : BitVec 3) (x : α) :
    perMask (setPerMask v k x) j = if j = k then x else perMask v j := by
  rw [perMask, setPerMask, Vector.getElem_set]
  simp only [BitVec.toNat_inj, eq_comm (a := k), perMask]

theorem getLsbD_one_shiftLeft (k j : BitVec 3) : (1#8 <<< k.toNat).getLsbD j.toNat = decide (j = k) := by
  revert k j
  decide

theorem scoreInv_unscored {s : State} (hscored : s.scored = 0) (hscore : s.score = noScores) (hpen : s.pen = noPenalties) :
    ScoreInv s := by
  have hzero : ∀ k : BitVec 3, perMask noScores k = 0 ∧ perMask noPenalties k = noPenalty := by decide
  refine ⟨fun k => ?_, fun k _ => ?_, fun _ => hscored, fun _ k hk => ?_⟩
  · rw [hscore, hpen, (hzero k).1, (hzero k).2]
    rfl
  · rw [hpen, (hzero k).2]
  · rw [hscored, BitVec.ofNat_eq_ofNat, BitVec.getLsbD_zero] at hk
    cases hk

theorem scoreInv_placeCodewords {s : State} (hs : ScoreInv s) (hphase : s.phase = .template) (bs : List Byte) :
    ScoreInv (placeCodewords s bs) := by
  obtain ⟨hsum, hunscored, hnone, -⟩ := hs
  refine ⟨hsum, hunscored, nofun, fun _ k hk => ?_⟩
  replace hk : s.scored.getLsbD k.toNat = true := hk
  rw [hnone (.inr hphase), BitVec.ofNat_eq_ofNat, BitVec.getLsbD_zero] at hk
  cases hk

theorem scoreInv_scoreMask {s : State} (hs : ScoreInv s) (hphase : s.phase = .placed) (k : BitVec 3) :
    ScoreInv (scoreMask s k) := by
  obtain ⟨hsum, hunscored, -, hscored⟩ := hs
  have hbit : ∀ j : BitVec 3, (scoreMask s k).scored.getLsbD j.toNat = (s.scored.getLsbD j.toNat || decide (j = k)) :=
    fun j => (BitVec.getLsbD_or ..).trans (by rw [getLsbD_one_shiftLeft])
  have hpen : ∀ j, perMask (scoreMask s k).pen j = if j = k then s.candidatePenalty k else perMask s.pen j :=
    fun j => perMask_setPerMask ..
  have hscore : ∀ j, perMask (scoreMask s k).score j = if j = k then (s.candidatePenalty k).total else perMask s.score j :=
    fun j => perMask_setPerMask ..
  refine ⟨fun j => ?_, fun j hj => ?_, fun h => ?_, fun _ j hj => ?_⟩
  · rw [hpen, hscore]
    split
    · rfl
    · exact hsum j
  · rw [hbit, Bool.or_eq_false_iff, decide_eq_false_iff_not] at hj
    rw [hpen, if_neg hj.2]
    exact hunscored j hj.1
  · obtain h | h := h <;> exact nomatch hphase.symm.trans h
  · rw [hbit, Bool.or_eq_true, decide_eq_true_eq] at hj
    rw [hpen]
    split
    next hk => exact hk ▸ rfl
    next hk => exact hscored hphase j (hj.resolve_right hk)

theorem scoreInv_applyBestMask {s : State} {pen : Vector Penalty 8} {score : Vector Word 8}
    (hsum : ∀ k, perMask score k = (perMask pen k).total) (best : BitVec 3) :
    ScoreInv (applyBestMask s pen score best) := by
  have hall : ∀ k : BitVec 3, (0xFF#8).getLsbD k.toNat = true := by decide
  exact ⟨hsum, fun k hk => (nomatch (hall k).symm.trans hk), nofun, nofun⟩

theorem scoreInv_of_effects {s u : State} {c : InFlight} {i : Instr} (hs : ScoreInv s) (h : Effects s c i u) :
    ScoreInv u := by
  cases i with
  | nop => exact h ▸ hs
  | gfAdd | gfSub | gfMul | gfDiv | gfPow | gfExp | gfLog =>
    obtain ⟨v, rfl⟩ := h
    exact hs
  | polyMul | polyMod =>
    obtain ⟨dst, bs, -, -, rfl⟩ := h
    exact hs
  | rsGen n =>
    obtain ⟨-, dst, -, -, rfl⟩ := h
    exact hs
  | rsEcc n =>
    obtain ⟨-, dst, data, -, -, rfl⟩ := h
    exact hs
  | tplLoad ver lvl =>
    obtain ⟨-, rfl⟩ := h
    exact scoreInv_unscored rfl rfl rfl
  | place =>
    obtain ⟨hphase, bs, -, rfl⟩ := h
    exact scoreInv_placeCodewords hs hphase bs
  | maskScore k =>
    obtain ⟨hphase, rfl⟩ := h
    exact scoreInv_scoreMask hs hphase k
  | maskOpt =>
    obtain ⟨-, pen, score, -, hsum, rfl⟩ := h
    exact scoreInv_applyBestMask hsum _
  | maskForce k =>
    obtain ⟨-, rfl⟩ := h
    obtain ⟨hsum, hunscored, -⟩ := hs
    exact ⟨hsum, hunscored, nofun, nofun⟩

/-! ## Every step -/

theorem inv_exec {i : Instr} {s t : State} (hs : Inv s) (h : exec i s = .next t) : Inv t := by
  obtain ⟨c, hc, ht⟩ := exec_eq_next h
  have hbusy : s.busy = true := by rw [State.busy, hc]; rfl
  obtain ⟨hstorage, hlife, hsymbol, hscore⟩ := hs
  obtain ⟨e, he, -, rfl⟩ | ⟨u, hu, rfl⟩ := ht
  · exact ⟨hstorage, lifecycleInv_raise hlife hbusy he, hsymbol, hscore⟩
  · have hstorage' : StorageInv u := storageInv_of_effects hstorage hu
    have hsymbol' : SymbolInv u := symbolInv_of_effects hstorage.2 hsymbol hu
    have hscore' : ScoreInv u := scoreInv_of_effects hscore hu
    exact ⟨hstorage', lifecycleInv_finish hlife hbusy (hasCommandEffects_of_effects hu), hsymbol', hscore'⟩

theorem inv_completeCommand {c : InFlight} {s t : State} (hs : Inv s) (hc : s.inFlight = some c)
    (h : completeCommand c s = .next t) : Inv t := by
  obtain ⟨i, -, hexec⟩ | ⟨e, -, rfl⟩ := completeCommand_eq_next h
  · exact inv_exec hs hexec
  · obtain ⟨hstorage, hlife, hsymbol, hscore⟩ := hs
    exact ⟨hstorage, lifecycleInv_raise hlife (by rw [State.busy, hc]; rfl) (argIdxOk_zero _ _), hsymbol, hscore⟩

theorem inv_waited {s : State} (hs : Inv s) (rest : List HostAccess) : Inv (waited s rest) := by
  obtain ⟨hstorage, hlife, hsymbol, hscore⟩ := hs
  exact ⟨hstorage, lifecycleInv_waited hlife rest, hsymbol, hscore⟩

/-- Settles O60: the reset values meet each part. -/
theorem resetMeetsTheInvariant : Obligations.ResetMeetsTheInvariant :=
  ⟨⟨reset_dmem_wf, cachesCorrect_reset⟩, lifecycleInv_reset, symbolInv_reset, scoreInv_unscored rfl rfl rfl⟩

theorem inv_of_hostChange {a : HostAccess} {s t : State} (hs : Inv s) (h : HostChange a s t) : Inv t := by
  obtain ⟨⟨hwf, hcaches⟩, hlife, hsymbol, hscore⟩ := hs
  cases h with
  | nothing | readData | control | overflow | args => exact ⟨⟨hwf, hcaches⟩, hlife, hsymbol, hscore⟩
  | dmem addr bs h => exact ⟨⟨Memory.writeBytes_wf hwf h, hcaches⟩, hlife, hsymbol, hscore⟩
  | reset h m hm =>
    exact ⟨⟨hm hwf, cachesCorrect_reset⟩, lifecycleInv_reset, symbolInv_reset, scoreInv_unscored rfl rfl rfl⟩
  | status v =>
    refine ⟨?_, lifecycleInv_writeStatus hlife v, ?_, ?_⟩ <;> rw [State.writeStatus_eq]
    · exact ⟨hwf, hcaches⟩
    · exact hsymbol
    · exact hscore
  | accept w => exact ⟨⟨hwf, hcaches⟩, lifecycleInv_accept s w, hsymbol, hscore⟩

/-- Settles O59: a completion, the passing of a host step and every host access keep each of the four parts. -/
theorem stepKeepsTheInvariant : Obligations.StepKeepsTheInvariant := by
  intro s t hs h
  obtain ⟨c, hc, -, hcomplete⟩ | rfl | ⟨a, rest, -, hchange⟩ := step_cases h
  · exact inv_completeCommand hs hc hcomplete
  · exact inv_waited hs []
  · exact inv_of_hostChange (inv_waited hs rest) hchange

end Sys2Proof.Invariant
end

section
/-! PROOF. What a completion leaves alone (R22 to R25, R41, R242, R251, R266), and what a final symbol survives (R226, R256). -/

namespace Sys2Proof.CompletionFrames

open Sys2Proof Sys2Proof.Machine Sys2Proof.CommandEffects Sys2Proof.Completion Sys2Proof.Invariant
open Sys2Proof.ReservedBits Sys2Proof.Steps

/-- Settles O54: an error report and a command's effects are on other registers. -/
theorem commandsKeepTheHostRegisters : Obligations.CommandsKeepTheHostRegisters := by
  intro i s t h
  obtain ⟨e, rfl⟩ | ⟨u, hu, rfl⟩ := completesFrom_exec i s t h
  · exact ⟨rfl, rfl, rfl, rfl, rfl, rfl, rfl, rfl, rfl⟩
  · rw [hu]
    exact ⟨rfl, rfl, rfl, rfl, rfl, rfl, rfl, rfl, rfl⟩

/-- Settles O52: `raise` sets ERR, `finish` sets DONE, and each keeps the other. -/
theorem completionSetsOneFlagAndCounts : Obligations.CompletionSetsOneFlagAndCounts := by
  intro i s t hdone herr h
  obtain ⟨e, rfl⟩ | ⟨u, hu, rfl⟩ := completesFrom_exec i s t h
  · exact ⟨hdone, rfl, rfl, by simp [State.irq]⟩
  · have hie : u.ie = s.ie := by rw [hu]
    have herr' : u.err = false := by rw [hu]; exact herr
    have hcount : u.cmdCount = s.cmdCount := by rw [hu]
    exact ⟨by simp [herr'], rfl, by simp [hcount], by simp [State.irq, hie]⟩

/-- The commands that write the working matrix: their effects keep every `rsv` bit, TPL.LOAD's apart (R41). -/
theorem matrix_of_effects {s u : State} {c : InFlight} {i : Instr} (h : Effects s c i u)
    (hload : ∀ ver lvl, i ≠ .tplLoad ver lvl) : u.matrix.rsvMap = s.matrix.rsvMap ∧
      (i ≠ .place → i ≠ .maskOpt → (∀ k, i ≠ .maskForce k) → u.matrix = s.matrix ∧ u.phase = s.phase) := by
  cases i with
  | nop =>
    obtain rfl : u = s := h
    exact ⟨rfl, fun _ _ _ => ⟨rfl, rfl⟩⟩
  | gfAdd | gfSub | gfMul | gfDiv | gfPow | gfExp | gfLog =>
    obtain ⟨v, rfl⟩ := h
    exact ⟨rfl, fun _ _ _ => ⟨rfl, rfl⟩⟩
  | polyMul | polyMod =>
    obtain ⟨dst, bs, -, -, rfl⟩ := h
    exact ⟨rfl, fun _ _ _ => ⟨rfl, rfl⟩⟩
  | rsGen n =>
    obtain ⟨-, dst, -, -, rfl⟩ := h
    exact ⟨rfl, fun _ _ _ => ⟨rfl, rfl⟩⟩
  | rsEcc n =>
    obtain ⟨-, dst, data, -, -, rfl⟩ := h
    exact ⟨rfl, fun _ _ _ => ⟨rfl, rfl⟩⟩
  | tplLoad ver lvl => exact absurd rfl (hload ver lvl)
  | place =>
    obtain ⟨-, bs, -, rfl⟩ := h
    exact ⟨rsvMap_placeBits _ _ _, fun hne => absurd rfl hne⟩
  | maskScore k =>
    obtain ⟨-, rfl⟩ := h
    exact ⟨rfl, fun _ _ _ => ⟨rfl, rfl⟩⟩
  | maskOpt =>
    obtain ⟨-, pen, score, -, -, rfl⟩ := h
    exact ⟨(rsvMap_writeFormat _ _ _).trans (rsvMap_candidate _ s.matrix), fun _ hne => absurd rfl hne⟩
  | maskForce k =>
    obtain ⟨-, rfl⟩ := h
    exact ⟨(rsvMap_writeFormat _ _ _).trans (rsvMap_candidate k s.matrix), fun _ _ hne => absurd rfl (hne k)⟩

/-- Settles O55: a report leaves the matrix, and so do the effects of the other commands. -/
theorem onlyFourCommandsWriteTheMatrix : Obligations.OnlyFourCommandsWriteTheMatrix := by
  intro i s t h hload
  obtain ⟨c, -, ⟨e, -, -, rfl⟩ | ⟨u, hu, rfl⟩⟩ := exec_eq_next h
  · exact ⟨rfl, fun _ _ _ => ⟨rfl, rfl⟩⟩
  · exact matrix_of_effects (u := u) hu hload

/-! ## A final symbol -/

/-- `t` has the final symbol of `s`. -/
def KeepsFinalSymbol (s t : State) : Prop :=
  t.phase = .final ∧ t.matrix = s.matrix ∧ t.version = s.version ∧ t.width = s.width ∧ t.level = s.level ∧
    t.fmt = s.fmt ∧ t.mask = s.mask

/-- In PHASE = FINAL only TPL.LOAD has an effect on the symbol: PLACE and the mask commands need another PHASE. -/
theorem effects_of_final {s u : State} {c : InFlight} {i : Instr} (hs : s.phase = .final) (h : Effects s c i u) :
    KeepsFinalSymbol s u ∨ u.phase = .template ∧ ∃ ver lvl, i = .tplLoad ver lvl := by
  cases i with
  | nop =>
    obtain rfl : u = s := h
    exact .inl ⟨hs, rfl, rfl, rfl, rfl, rfl, rfl⟩
  | gfAdd | gfSub | gfMul | gfDiv | gfPow | gfExp | gfLog =>
    obtain ⟨v, rfl⟩ := h
    exact .inl ⟨hs, rfl, rfl, rfl, rfl, rfl, rfl⟩
  | polyMul | polyMod =>
    obtain ⟨dst, bs, -, -, rfl⟩ := h
    exact .inl ⟨hs, rfl, rfl, rfl, rfl, rfl, rfl⟩
  | rsGen n =>
    obtain ⟨-, dst, -, -, rfl⟩ := h
    exact .inl ⟨hs, rfl, rfl, rfl, rfl, rfl, rfl⟩
  | rsEcc n =>
    obtain ⟨-, dst, data, -, -, rfl⟩ := h
    exact .inl ⟨hs, rfl, rfl, rfl, rfl, rfl, rfl⟩
  | tplLoad ver lvl =>
    obtain ⟨-, rfl⟩ := h
    exact .inr ⟨rfl, ver, lvl, rfl⟩
  | place | maskScore | maskOpt | maskForce =>
    obtain ⟨hphase, -⟩ := h
    exact nomatch hs.symm.trans hphase

theorem keepsFinalSymbol_of_hostChange {a : HostAccess} {s t : State} (hs : s.phase = .final) (h : HostChange a s t) :
    KeepsFinalSymbol s t ∨ t.phase = .empty ∧ Resets a := by
  cases h with
  | nothing | readData | dmem | control | overflow | accept | args => exact .inl ⟨hs, rfl, rfl, rfl, rfl, rfl, rfl⟩
  | status v =>
    rw [State.writeStatus_eq]
    exact .inl ⟨hs, rfl, rfl, rfl, rfl, rfl, rfl⟩
  | reset hresets => exact .inr ⟨rfl, hresets⟩

/-- Settles O57: a completion's effects and a host access keep the symbol, TPL.LOAD and the two resets apart. -/
theorem finalSymbolStaysUntilReplaced : Obligations.FinalSymbolStaysUntilReplaced := by
  intro s t hs h
  obtain ⟨c, hc, hd, hcomplete⟩ | rfl | ⟨a, rest, hmoves, hchange⟩ := step_cases h
  · obtain ⟨i, hi, hexec⟩ | ⟨e, -, rfl⟩ := completeCommand_eq_next hcomplete
    · obtain ⟨c', -, ⟨e, -, -, rfl⟩ | ⟨u, hu, rfl⟩⟩ := exec_eq_next hexec
      · exact .inl ⟨hs, rfl, rfl, rfl, rfl, rfl, rfl⟩
      · obtain hkeeps | ⟨hphase, ver, lvl, rfl⟩ := effects_of_final hs hu
        · exact .inl hkeeps
        · exact .inr (.inl ⟨hphase, c, ver, lvl, hc, hd, hi⟩)
    · exact .inl ⟨hs, rfl, rfl, rfl, rfl, rfl, rfl⟩
  · exact .inl ⟨hs, rfl, rfl, rfl, rfl, rfl, rfl⟩
  · obtain hkeeps | ⟨hphase, hresets⟩ := keepsFinalSymbol_of_hostChange (s := waited s rest) hs hchange
    · exact .inl hkeeps
    · exact .inr (.inr ⟨hphase, a, rest, hmoves, hresets⟩)

end Sys2Proof.CompletionFrames
end

section
/-! PROOF. What a command does not read: CMD and the ARG registers at completion (R46), and what the caches hold, as long as they
answer the same (R43, R44). One comparison of two runs of each command serves both. -/

namespace Sys2Proof.UnreadState

open Sys2Proof Sys2Proof.Machine Sys2Proof.CorrectCaches Sys2Proof.CommandEffects Sys2Proof.Steps

/-! ## Two runs side by side -/

/-- Both answers are next states in the relation, or the same fault, or the same refusal. -/
def SameAnswers (R : State → State → Prop) : Result → Result → Prop
  | .next t, .next t' => R t t'
  | .fault f, .fault f' => f = f'
  | .refused r, .refused r' => r = r'
  | _, _ => False

section
variable {R : State → State → Prop} {s s' : State}

theorem sameAnswers_withCommand {k k' : InFlight → Result} (hs : s'.inFlight = s.inFlight)
    (h : ∀ c, SameAnswers R (k c) (k' c)) : SameAnswers R (s.withCommand k) (s'.withCommand k') := by
  rw [State.withCommand, State.withCommand, hs]
  cases s.inFlight with
  | none => rfl
  | some c => exact h c

theorem sameAnswers_readSource {sp : Span} {k k' : List Byte → Result} (hs : s'.dmem = s.dmem)
    (h : ∀ bs, SameAnswers R (k bs) (k' bs)) : SameAnswers R (s.readSource sp k) (s'.readSource sp k') := by
  rw [State.readSource, State.readSource, hs]
  cases s.dmem.readBytes sp.addr sp.len with
  | none => rfl
  | some bs => exact h bs

theorem sameAnswers_ite {p : Prop} [Decidable p] {r₁ r₂ r₁' r₂' : Result} (h₁ : SameAnswers R r₁ r₁')
    (h₂ : SameAnswers R r₂ r₂') : SameAnswers R (if p then r₁ else r₂) (if p then r₁' else r₂') := by
  split
  · exact h₁
  · exact h₂

end

theorem sameAnswers_next {R : State → State → Prop} {t : State} {r' : Result} (h : SameAnswers R (.next t) r') :
    ∃ t', r' = .next t' ∧ R t t' := by
  cases r' with
  | next t' => exact ⟨t', rfl, h⟩
  | fault | refused => exact h.elim

theorem sameAnswers_fault {R : State → State → Prop} {f : Fault} {r' : Result} (h : SameAnswers R (.fault f) r') :
    r' = .fault f := by
  cases r' with
  | fault f' => exact congrArg _ (Eq.symm h)
  | next | refused => exact h.elim

theorem sameAnswers_refused {R : State → State → Prop} {r : Refusal} {r' : Result} (h : SameAnswers R (.refused r) r') :
    r' = .refused r := by
  cases r' with
  | refused r' => exact congrArg _ (Eq.symm h)
  | next | fault => exact h.elim

/-- Another relation that the next states of the first run make hold. -/
theorem SameAnswers.imp {R R' : State → State → Prop} {r r' : Result} (h : SameAnswers R r r')
    (hR : ∀ t t', r = .next t → R t t' → R' t t') : SameAnswers R' r r' := by
  cases r with
  | next t =>
    obtain ⟨t', rfl, ht⟩ := sameAnswers_next h
    exact hR t t' rfl ht
  | fault f =>
    obtain rfl := sameAnswers_fault h
    rfl
  | refused r =>
    obtain rfl := sameAnswers_refused h
    rfl

/-! ## Commands -/

/-- `s` with other values of CMD, the ARG registers and the caches. -/
def withUnread (s : State) (w x y z : Word) (g : List (Nat × List Byte)) (p : List (Nat × Matrix)) : State :=
  { s with cmd := w, arg0 := x, arg1 := y, arg2 := z, genCache := g, tplCache := p }

section
variable (s : State) (w x y z : Word) (g : List (Nat × List Byte)) (p : List (Nat × Matrix))

/-- `t` and `t'` are one state but for the values of CMD and the ARG registers, which stay, and for the caches, which were
the same only if they still are. -/
def AlikeAfter (t t' : State) : Prop :=
  t' = withUnread t w x y z t'.genCache t'.tplCache ∧ (g = s.genCache → t'.genCache = t.genCache) ∧
    (p = s.tplCache → t'.tplCache = t.tplCache)

variable (hgen : ∀ n, (withUnread s w x y z g p).generator n = s.generator n)
  (htpl : ∀ v, (withUnread s w x y z g p).prototype v = s.prototype v)
include hgen htpl

/-- A command decides by what it reads, and it publishes the same entry in both runs. -/
theorem sameAnswers_exec (i : Instr) :
    SameAnswers (AlikeAfter s w x y z g p) (exec i s) (exec i (withUnread s w x y z g p)) := by
  cases i with
  | nop | gfAdd | gfSub | gfMul => exact sameAnswers_withCommand rfl fun _ => ⟨rfl, id, id⟩
  | gfDiv a b =>
    refine sameAnswers_withCommand rfl fun _ => ?_
    cases gfdiv a b <;> exact ⟨rfl, id, id⟩
  | gfPow a e =>
    refine sameAnswers_withCommand rfl fun _ => ?_
    cases gfpow a e.toNat <;> exact ⟨rfl, id, id⟩
  | gfExp | gfLog | maskScore | maskOpt | maskForce =>
    exact sameAnswers_withCommand rfl fun _ => sameAnswers_ite ⟨rfl, id, id⟩ ⟨rfl, id, id⟩
  | polyMul =>
    refine sameAnswers_withCommand rfl fun c => ?_
    cases polyMulPlan c with
    | error e => exact ⟨rfl, id, id⟩
    | ok sp => exact sameAnswers_readSource rfl fun _ => sameAnswers_readSource rfl fun _ => ⟨rfl, id, id⟩
  | polyMod =>
    refine sameAnswers_withCommand rfl fun c => ?_
    cases polyModPlan c with
    | error e => exact ⟨rfl, id, id⟩
    | ok sp =>
      exact sameAnswers_readSource rfl fun _ => sameAnswers_readSource rfl fun _ =>
        sameAnswers_ite ⟨rfl, id, id⟩ ⟨rfl, id, id⟩
  | rsGen n =>
    refine sameAnswers_withCommand rfl fun c => ?_
    rw [hgen]
    cases rsGenPlan n c with
    | error e => exact ⟨rfl, id, id⟩
    | ok dst => exact ⟨rfl, fun h => congrArg₂ (cachePublish · n.toNat ·) h (hgen n.toNat), id⟩
  | rsEcc n =>
    refine sameAnswers_withCommand rfl fun c => ?_
    rw [hgen]
    cases rsEccPlan n c with
    | error e => exact ⟨rfl, id, id⟩
    | ok sp =>
      exact sameAnswers_readSource rfl fun _ => ⟨rfl, fun h => congrArg₂ (cachePublish · n.toNat ·) h (hgen n.toNat), id⟩
  | tplLoad ver lvl =>
    refine sameAnswers_withCommand rfl fun c => sameAnswers_ite ⟨rfl, id, id⟩ (sameAnswers_ite ⟨rfl, id, id⟩ ?_)
    simp only [htpl]
    exact ⟨rfl, id, fun h => h ▸ rfl⟩
  | place =>
    refine sameAnswers_withCommand rfl fun c => sameAnswers_ite ⟨rfl, id, id⟩ ?_
    cases checkSource 0 0 c.arg0 with
    | error e => exact ⟨rfl, id, id⟩
    | ok src => exact sameAnswers_ite ⟨rfl, id, id⟩ (sameAnswers_readSource rfl fun _ => ⟨rfl, id, id⟩)

end

/-- Settles O56: with the caches left as they are, the two runs differ in the four registers alone. -/
theorem commandsUseTheLatchedArguments : Obligations.CommandsUseTheLatchedArguments := by
  intro i s w x y z
  have h : SameAnswers (AlikeAfter s w x y z s.genCache s.tplCache) (exec i s)
      (exec i { s with cmd := w, arg0 := x, arg1 := y, arg2 := z }) :=
    sameAnswers_exec s w x y z s.genCache s.tplCache (fun _ => rfl) (fun _ => rfl) i
  cases hr : exec i s with
  | next t =>
    obtain ⟨t', hr', halike, hgen, htpl⟩ := sameAnswers_next (hr ▸ h)
    rw [hr', halike, hgen rfl, htpl rfl]
    rfl
  | fault f => exact sameAnswers_fault (hr ▸ h)
  | refused r => exact sameAnswers_refused (hr ▸ h)

/-! ## Steps of two states alike but for correct caches -/

/-- A command's completion: the entries that the two runs look up are the rule's. -/
theorem sameAnswers_completeCommand {s s' : State} (hs : CachesCorrect s) (hs' : CachesCorrect s')
    (h : AlikeButCaches s s') (c : InFlight) :
    SameAnswers AlikeButCaches (completeCommand c s) (completeCommand c s') := by
  rw [h] at hs' ⊢
  unfold completeCommand
  cases decode c.word with
  | error e => exact rfl
  | ok i =>
    have hexec : SameAnswers (AlikeAfter s s.cmd s.arg0 s.arg1 s.arg2 s'.genCache s'.tplCache) (exec i s)
        (exec i { s with genCache := s'.genCache, tplCache := s'.tplCache }) :=
      sameAnswers_exec s s.cmd s.arg0 s.arg1 s.arg2 s'.genCache s'.tplCache
        (fun n => (generator_of_cachesCorrect hs' n).trans (generator_of_cachesCorrect hs n).symm)
        (fun v => (prototype_of_cachesCorrect hs' v).trans (prototype_of_cachesCorrect hs v).symm) i
    refine hexec.imp fun t t' ht ⟨halike, _⟩ => halike.trans ?_
    obtain ⟨-, -, hcmd, harg0, harg1, harg2, -⟩ := CompletionFrames.commandsKeepTheHostRegisters i s t ht
    rw [withUnread, ← hcmd, ← harg0, ← harg1, ← harg2]

theorem alikeButCaches_writeRegister {s s' : State} (h : AlikeButCaches s s') (o : Nat) (v : Word) :
    AlikeButCaches (s.writeRegister o v) (s'.writeRegister o v) := by
  have hsrst : AlikeButCaches s.softReset s'.softReset := by
    rw [h]
    have hspan : ({ s with genCache := s'.genCache, tplCache := s'.tplCache } : State).abortedSpan = s.abortedSpan := rfl
    unfold State.softReset
    rw [hspan]
    cases s.abortedSpan <;> rfl
  have hstatus : AlikeButCaches (s.writeStatus v) (s'.writeStatus v) := by
    rw [State.writeStatus_eq, State.writeStatus_eq, h]
    rfl
  have hbusy : s'.busy = s.busy := by rw [h]; rfl
  unfold State.writeRegister State.writeCtrl State.writeCmd
  rw [hbusy]
  split_ifs
  · exact hsrst
  · rw [h]; rfl
  · exact hstatus
  · rw [h]; rfl
  · rw [h]; rfl
  · rw [h]; rfl
  · rw [h]; rfl
  · rw [h]; rfl
  · exact h

/-- No host access reads or writes a cache. -/
theorem sameAnswers_performAccess {s s' : State} (h : AlikeButCaches s s') (a : HostAccess) :
    SameAnswers AlikeButCaches (performAccess a s) (performAccess a s') := by
  cases a with
  | read o n =>
    rw [h]
    exact sameAnswers_ite rfl <| sameAnswers_ite (sameAnswers_ite rfl rfl) <|
      sameAnswers_ite (sameAnswers_ite rfl (sameAnswers_ite (sameAnswers_readSource rfl fun _ => rfl) rfl)) <|
      sameAnswers_ite (sameAnswers_ite rfl (sameAnswers_ite rfl rfl)) rfl
  | write o n v =>
    have hreg := alikeButCaches_writeRegister h o v
    rw [h] at hreg ⊢
    exact sameAnswers_ite rfl <| sameAnswers_ite (sameAnswers_ite hreg rfl) <|
      sameAnswers_ite (sameAnswers_ite rfl (sameAnswers_ite rfl rfl)) <|
      sameAnswers_ite (sameAnswers_ite rfl rfl) rfl
  | hardReset =>
    rw [h]
    exact rfl
  | idle => exact h

theorem alikeButCaches_waited {s s' : State} (h : AlikeButCaches s s') (rest : List HostAccess) :
    AlikeButCaches (waited s rest) (waited s' rest) := by
  rw [h]
  rfl

theorem sameAnswers_step {s s' : State} (hs : CachesCorrect s) (hs' : CachesCorrect s') (h : AlikeButCaches s s') :
    SameAnswers AlikeButCaches (step s) (step s') := by
  have hflight : s'.inFlight = s.inFlight := by rw [h]
  have hqueue : s'.hostQueue = s.hostQueue := by rw [h]
  by_cases hd : ∀ c, s.inFlight = some c → 0 < c.delay
  · cases hq : s.hostQueue with
    | nil =>
      rw [step_of_nil hq hd, step_of_nil (hqueue.trans hq) (hflight ▸ hd)]
      exact alikeButCaches_waited h []
    | cons a rest =>
      rw [step_of_hostMovesNext ⟨hq, hd⟩, step_of_hostMovesNext ⟨hqueue.trans hq, hflight ▸ hd⟩]
      exact sameAnswers_performAccess (alikeButCaches_waited h rest) a
  · push Not at hd
    obtain ⟨c, hc, hd⟩ := hd
    have hd := Nat.le_zero.mp hd
    rw [Encoding.step_of_delay_zero hc hd, Encoding.step_of_delay_zero (hflight.trans hc) hd]
    exact sameAnswers_completeCommand hs hs' h c

theorem cachesCorrect_step {s t : State} (hs : CachesCorrect s) (h : step s = .next t) : CachesCorrect t := by
  obtain ⟨c, -, -, hcomplete⟩ | rfl | ⟨a, rest, -, hchange⟩ := step_cases h
  · obtain ⟨i, -, hexec⟩ | ⟨e, -, rfl⟩ := completeCommand_eq_next hcomplete
    · obtain ⟨c', -, ⟨e, -, -, rfl⟩ | ⟨u, hu, rfl⟩⟩ := exec_eq_next hexec
      · exact hs
      · have hu' : CachesCorrect u := cachesCorrect_of_effects hs hu
        exact hu'
    · exact hs
  · exact hs
  · cases hchange with
    | nothing | readData | dmem | control | overflow | accept | args => exact hs
    | status v =>
      rw [State.writeStatus_eq]
      exact hs
    | reset => exact cachesCorrect_reset

/-- Settles O58: commands look up only what both caches answer alike, and no host access sees a cache. -/
theorem cachesAreInvisible : Obligations.CachesAreInvisible := by
  intro s s' hs hs' halike
  have h := sameAnswers_step hs hs' halike
  refine ⟨fun t ht => ?_, fun f hf => sameAnswers_fault (hf ▸ h), fun r hr => sameAnswers_refused (hr ▸ h)⟩
  obtain ⟨t', ht', hsame⟩ := sameAnswers_next (ht ▸ h)
  exact ⟨t', ht', hsame, cachesCorrect_step hs ht, cachesCorrect_step hs' ht'⟩

end Sys2Proof.UnreadState
end

section
/-! PROOF. Steps and register accesses (10_state.md section 2, R58 to R72 of 20_memory.md, R250, R280, R295): the schedule of the two
agents, the latency run out, acceptance, and every register read and write. -/

namespace Sys2Proof.RegisterAccess

open Sys2Proof Sys2Proof.Machine Sys2Proof.Steps

/-! ## The schedule -/

theorem completeCommand_of_decode_ok {c : InFlight} {i : Instr} (h : decode c.word = .ok i) (s : State) :
    completeCommand c s = exec i s := by
  simp only [completeCommand, h]

/-- Settles O4: the step's three cases. -/
theorem stepRunsTheDecodedCommand : Obligations.StepRunsTheDecodedCommand := by
  refine ⟨fun s c i hc hd hi => ?_, fun s a rest => step_of_hostMovesNext, fun s => step_of_nil⟩
  rw [Encoding.step_of_delay_zero hc hd, completeCommand_of_decode_ok hi]

theorem run_succ_of_step_eq_next {s t : State} (h : step s = .next t) (k : Nat) :
    core.run (k + 1) s = core.run k t := by
  simp only [Host.Core.run, core, h]

theorem run_one (s : State) : core.run 1 s = step s := by
  simp only [Host.Core.run, core]
  cases step s <;> rfl

/-- With `d` host steps to wait and no access to make, `d + 1` steps are the command's completion. -/
theorem run_eq_exec {i : Instr} {s : State} {c : InFlight} (hq : s.hostQueue = []) (hi : decode c.word = .ok i) (d : Nat) :
    core.run (d + 1) { s with inFlight := some { c with delay := d } } =
      exec i { s with inFlight := some { c with delay := 0 } } := by
  induction d with
  | zero =>
    exact (run_one _).trans <| (Encoding.step_of_delay_zero rfl rfl).trans <|
      completeCommand_of_decode_ok (c := { c with delay := 0 }) hi _
  | succ d ih =>
    have hwait : step { s with inFlight := some { c with delay := d + 1 } } =
        .next { s with inFlight := some { c with delay := d } } := hostStep_of_nil hq
    rw [run_succ_of_step_eq_next hwait, ih]

/-- Settles O6: the steps before the completion only run the latency down. -/
theorem everyAcceptedCommandCompletes : Obligations.EveryAcceptedCommandCompletes := by
  intro s c i hq hc hi
  have h := run_eq_exec hq hi c.delay
  rwa [show ({ s with inFlight := some c } : State) = s by rw [← hc]] at h

/-! ## Register accesses -/

/-- Every byte offset below 0x1000 that is a multiple of 4 is a register word; the reserved ones are R49's. -/
theorem step_of_registerRead {s : State} {o : Nat} {rest : List HostAccess} (ho : o < 0x1000) (ha : o % 4 = 0)
    (hr : ¬ Reserved o) (h : HostMovesNext s (.read o 4) rest) :
    step s = .next { waited s rest with readData := some ((waited s rest).readRegister o) } := by
  rw [step_of_hostMovesNext h, performAccess, hostRead, reservedAccess_of_offset hr, if_neg Bool.false_ne_true,
    if_pos (show o < dmemBase from ho), if_pos ⟨rfl, ha⟩]
  rfl

theorem step_of_registerWrite {s : State} {o : Nat} {v : Word} {rest : List HostAccess} (ho : o < 0x1000)
    (ha : o % 4 = 0) (hr : ¬ Reserved o) (h : HostMovesNext s (.write o 4 v) rest) :
    step s = .next ((waited s rest).writeRegister o v) := by
  rw [step_of_hostMovesNext h, performAccess, hostWrite, reservedAccess_of_offset hr, if_neg Bool.false_ne_true,
    if_pos (show o < dmemBase from ho), if_pos ⟨rfl, ha⟩]

/-- The three read-only ranges of the map ignore a write (R69). -/
theorem writeRegister_of_readOnly {s : State} {o : Nat} (v : Word) (h : o = 0x000 ∨ 0x01C ≤ o) :
    s.writeRegister o v = s := by
  unfold State.writeRegister
  repeat rw [if_neg (by omega)]

/-- Settles O7: the write reaches `accept`. -/
theorem commandWriteIsAccepted : Obligations.CommandWriteIsAccepted := by
  intro s w rest hnone hqueue
  have hmoves : HostMovesNext s (.write 0x00C 4 w) rest := ⟨hqueue, by simp [hnone]⟩
  have hidle : (waited s rest).busy = false := by
    rw [waited_busy, State.busy, hnone]
    rfl
  refine ⟨Config.commandLatency s.latencyIndex, s.latencyIndex + 1, (CommandWrite.step_of_cmdWrite hmoves).trans ?_⟩
  rw [CommandWrite.writeCmd_of_not_busy hidle, State.accept, waited, hnone]
  rfl

/-- Settles O9: each register's own write, and the read-only ranges. -/
theorem controlStatusAndArgumentWrites : Obligations.ControlStatusAndArgumentWrites := by
  intro s v rest
  refine ⟨fun h => ?_, fun h hsrst => ?_, step_of_hostMovesNext, step_of_hostMovesNext, step_of_hostMovesNext,
    fun o ho ha h => ?_⟩
  · refine ⟨_, step_of_hostMovesNext h, rfl, ?_⟩
    exact State.writeStatus_eq (waited s rest) v
  · refine ⟨{ waited s rest with ie := v.getLsbD 0 }, (step_of_hostMovesNext h).trans ?_, rfl, rfl⟩
    have hctrl : (waited s rest).writeCtrl v = { waited s rest with ie := v.getLsbD 0 } :=
      if_neg (Bool.eq_false_iff.mp hsrst)
    rw [← hctrl]
    rfl
  · have hres : ¬ Reserved o := by
      unfold Reserved
      omega
    rw [step_of_registerWrite (by omega) ha hres h, writeRegister_of_readOnly v (by omega)]

/-! ## The register map -/

theorem reset_hardReset {s : State} {rest : List HostAccess} (h : HostMovesNext s .hardReset rest) :
    step s = .next { State.reset with
      dmem := s.dmem, hostQueue := rest, readData := s.readData, latencyIndex := s.latencyIndex } :=
  step_of_hostMovesNext h

/-- Settles O11: the reset values, register by register. -/
theorem hardwareResetValues : Obligations.HardwareResetValues :=
  ⟨fun _ _ => reset_hardReset, by decide, fun r c => by simp [Matrix.cell, State.reset], fun _ => rfl, rfl, rfl, rfl, rfl⟩

/-- A register of the map is a word of the register space outside the reserved words, and reads as the map says. -/
def IsMapped (s : State) (p : Nat × Word) : Prop :=
  (p.1 < 0x100 ∧ p.1 % 4 = 0 ∧ reservedOffset p.1 = false) ∧ s.readRegister p.1 = p.2

theorem zext_eq_word {n : Nat} (x : BitVec n) : x.setWidth 32 = word x.toNat := (BitVec.ofNat_toNat 32 x).symm

theorem ctrlWord_eq (s : State) : s.ctrlWord = if s.ie then 1 else 0 := rfl

theorem statusWord_eq (s : State) : s.statusWord =
    (if s.busy then 1 else 0) + (if s.done then 2 else 0) + (if s.err then 4 else 0) + (if s.ovf then 8 else 0) := by
  unfold State.statusWord
  cases s.busy <;> cases s.done <;> cases s.err <;> cases s.ovf <;> rfl

theorem errcodeWord_eq (s : State) : s.errcodeWord = word (256 * s.errArgIdx.toNat + s.errCode.toNat) := by
  apply BitVec.eq_of_toNat_eq
  have hcode := s.errCode.isLt
  have hidx := s.errArgIdx.isLt
  rw [State.errcodeWord, BitVec.toNat_append, BitVec.toNat_append, ← Nat.shiftLeft_add_eq_or_of_lt hcode,
    ← Nat.shiftLeft_add_eq_or_of_lt hidx, Nat.shiftLeft_eq, BitVec.toNat_ofNat, BitVec.toNat_ofNat]
  omega

/-- SCORE[k] is at 0x060 + 4k (R38). -/
theorem readRegister_score (s : State) {k : Nat} (hk : k < 8) :
    s.readRegister (0x060 + 4 * k) = s.score[k]?.getD 0 := by
  have hindex : (0x060 + 4 * k - 0x060) / 4 = k := by omega
  unfold State.readRegister
  repeat rw [if_neg (by omega)]
  rw [if_pos (by omega), hindex]
  simp [perMask, hk, Nat.mod_eq_of_lt hk]

/-- PEN[k][j] is at 0x080 + 16k + 4j (R39). -/
theorem readRegister_pen (s : State) {k j : Nat} (hk : k < 8) (hj : j < 4) :
    s.readRegister (0x080 + 16 * k + 4 * j) = (s.pen[k]?.getD noPenalty).get j := by
  have hindex : (0x080 + 16 * k + 4 * j - 0x080) / 16 = k := by omega
  have hpart : (0x080 + 16 * k + 4 * j - 0x080) % 16 / 4 = j := by omega
  unfold State.readRegister
  repeat rw [if_neg (by omega)]
  rw [if_pos (by omega), hindex, hpart]
  simp [perMask, hk, Nat.mod_eq_of_lt hk]

/-- The registers below SCORE, one by one. -/
theorem isMapped_of_readRegister {s : State} {o : Nat} {v : Word}
    (ho : (decide (o < 0x100 ∧ o % 4 = 0) && !reservedOffset o) = true) (hv : s.readRegister o = v) :
    IsMapped s (o, v) := by
  rw [Bool.and_eq_true, decide_eq_true_eq, Bool.not_eq_true'] at ho
  exact ⟨⟨ho.1.1, ho.1.2, ho.2⟩, hv⟩

theorem isMapped_score (s : State) {k : Nat} (hk : k < 8) : IsMapped s (0x060 + 4 * k, s.score[k]?.getD 0) := by
  refine ⟨⟨by omega, by omega, ?_⟩, readRegister_score s hk⟩
  rw [← Bool.not_eq_true, reservedOffset_iff, Reserved]
  omega

theorem isMapped_pen (s : State) {k j : Nat} (hk : k < 8) (hj : j < 4) :
    IsMapped s (0x080 + 16 * k + 4 * j, (s.pen[k]?.getD noPenalty).get j) := by
  refine ⟨⟨by omega, by omega, ?_⟩, readRegister_pen s hk hj⟩
  rw [← Bool.not_eq_true, reservedOffset_iff, Reserved]
  omega

theorem isMapped_of_mem_registerMap {s : State} : ∀ p ∈ registerMap s, IsMapped s p := by
  simp only [registerMap, List.forall_mem_append, List.forall_mem_cons, List.forall_mem_map, List.forall_mem_flatMap,
    List.mem_range]
  refine ⟨⟨⟨?_, ?_⟩, fun k hk => isMapped_score s hk⟩, fun k hk => ?_⟩
  · exact ⟨isMapped_of_readRegister rfl rfl, isMapped_of_readRegister rfl rfl, isMapped_of_readRegister rfl (statusWord_eq s),
      isMapped_of_readRegister rfl rfl, isMapped_of_readRegister rfl rfl, isMapped_of_readRegister rfl rfl,
      isMapped_of_readRegister rfl rfl, isMapped_of_readRegister rfl rfl, isMapped_of_readRegister rfl rfl,
      isMapped_of_readRegister rfl (errcodeWord_eq s), isMapped_of_readRegister rfl rfl, nofun⟩
  · refine ⟨isMapped_of_readRegister rfl (zext_eq_word s.version), isMapped_of_readRegister rfl (zext_eq_word s.width),
      isMapped_of_readRegister rfl (zext_eq_word s.level), isMapped_of_readRegister rfl ?_,
      isMapped_of_readRegister rfl (zext_eq_word s.mask), isMapped_of_readRegister rfl (zext_eq_word s.fmt),
      isMapped_of_readRegister rfl (zext_eq_word s.capacity), isMapped_of_readRegister rfl (zext_eq_word s.placed),
      isMapped_of_readRegister rfl rfl, isMapped_of_readRegister rfl (zext_eq_word s.scored), nofun⟩
    change s.phase.code.setWidth 32 = _
    cases s.phase <;> rfl
  · have hpen := fun j (hj : j < 4) => isMapped_pen s hk hj
    have hoffset : 132 + 16 * k = 0x080 + 16 * k + 4 * 1 ∧ 136 + 16 * k = 0x080 + 16 * k + 4 * 2 ∧
        140 + 16 * k = 0x080 + 16 * k + 4 * 3 := by omega
    rw [hoffset.1, hoffset.2.1, hoffset.2.2]
    exact ⟨hpen 0 (by decide), hpen 1 (by decide), hpen 2 (by decide), hpen 3 (by decide), nofun⟩

theorem registerMap_waited (s : State) (rest : List HostAccess) : registerMap (waited s rest) = registerMap s := by
  simp only [registerMap, waited_busy]
  rfl

/-- Settles O12: the map's offsets are register words, and each reads its own register. -/
theorem registerReadsReturnTheRegister : Obligations.RegisterReadsReturnTheRegister := by
  intro s p rest hp h
  rw [← registerMap_waited s rest] at hp
  obtain ⟨⟨ho, ha, hr⟩, hread⟩ := isMapped_of_mem_registerMap p hp
  rw [← Bool.not_eq_true, reservedOffset_iff] at hr
  rw [step_of_registerRead (by omega) ha hr h, hread]

/-- Settles O13: a read's answer is the state with the data delivered. -/
theorem readsHaveNoSideEffects : Obligations.ReadsHaveNoSideEffects := by
  intro s t o n rest h hstep
  rw [step_of_hostMovesNext h] at hstep
  obtain ⟨v, rfl⟩ := hostRead_eq_next hstep
  rfl

end Sys2Proof.RegisterAccess
end

section
/-! PROOF. Host accesses to DMEM, the matrix window and the reserved offsets (R60 to R64, R68 to R70 of 20_memory.md): what each
region answers, said once, the bytes of a word in little-endian order, and every refusal. -/

namespace Sys2Proof.MemoryAccess

open Sys2Proof Sys2Proof.Machine

/-! ## Little-endian words (R63) -/

/-- Bit i of a word of bytes is bit i mod 8 of byte i div 8. -/
theorem getLsbD_littleEndianWord {bs : List Byte} (h : bs.length ≤ 4) (i : Nat) :
    (littleEndianWord bs).getLsbD i = (bs.getD (i / 8) 0).getLsbD (i % 8) := by
  induction bs generalizing i with
  | nil => simp [littleEndianWord]
  | cons b bs ih =>
    rw [List.length_cons] at h
    rw [littleEndianWord, BitVec.getLsbD_or, BitVec.getLsbD_setWidth, BitVec.getLsbD_shiftLeft, ih (by omega)]
    by_cases hi : i < 8
    · have hbyte : i / 8 = 0 ∧ i % 8 = i := by omega
      simp [hbyte, hi]
      omega
    · obtain ⟨k, rfl⟩ := Nat.exists_eq_add_of_le (not_lt.mp hi)
      have hbyte : (8 + k) / 8 = k / 8 + 1 ∧ (8 + k) % 8 = k % 8 := by omega
      by_cases hk : 8 + k < 32
      · simp [hbyte, hk]
      · have hout : bs.length ≤ k / 8 := by omega
        simp [hbyte, hk, hout]

/-- Byte j of the word is byte j of the list. -/
theorem extractLsb'_littleEndianWord {bs : List Byte} (h : bs.length ≤ 4) (j : Nat) :
    (littleEndianWord bs).extractLsb' (8 * j) 8 = bs.getD j 0 := by
  apply BitVec.eq_of_getLsbD_eq
  intro i hi
  have hbyte : (8 * j + i) / 8 = j ∧ (8 * j + i) % 8 = i := by omega
  rw [BitVec.getLsbD_extractLsb', getLsbD_littleEndianWord h, hbyte.1, hbyte.2, decide_eq_true hi, Bool.true_and]

theorem toNat_littleEndianWord_lt {bs : List Byte} (h : bs.length ≤ 4) :
    (littleEndianWord bs).toNat < 2 ^ (8 * bs.length) := by
  refine Nat.lt_pow_two_of_testBit _ fun i hi => ?_
  rw [BitVec.testBit_toNat, getLsbD_littleEndianWord h, List.getD_eq_default _ _ (by omega)]
  exact BitVec.getLsbD_zero

/-- The low n bytes of a word, put together again. -/
theorem littleEndianWord_littleEndianBytes (v : Word) {n : Nat} (h : n ≤ 4) :
    littleEndianWord (littleEndianBytes v n) = word (v.toNat % 2 ^ (8 * n)) := by
  apply BitVec.eq_of_getLsbD_eq
  intro i hi
  rw [getLsbD_littleEndianWord (by rwa [Steps.length_littleEndianBytes]), BitVec.getLsbD_ofNat, Nat.testBit_mod_two_pow,
    BitVec.testBit_toNat, decide_eq_true hi, Bool.true_and]
  by_cases hn : i < 8 * n
  · have hbyte : i / 8 < n := by omega
    have hbit : 8 * (i / 8) + i % 8 = i := by omega
    simp [littleEndianBytes, hbyte, hn, hbit, Nat.mod_lt]
  · have hbyte : n ≤ i / 8 := by omega
    simp [littleEndianBytes, hbyte, hn]

/-! ## The regions -/

/-- A DMEM offset (R60). -/
def InDmem (o : Nat) : Prop := 0x1000 ≤ o ∧ o < 0x1000 + Config.dmemSize

/-- An access that reaches the window: it starts in it, or in the reserved offsets before it (R60, log 9). -/
def InWindow (o n : Nat) : Prop :=
  o < 0x20000 ∧ (0x10000 ≤ o ∨ (0x1000 + Config.dmemSize ≤ o ∧ 0x10000 < o + n))

theorem reservedAccess_of_inDmem {o : Nat} (h : InDmem o) (n : Nat) : reservedAccess o n = false := by
  refine reservedAccess_of_offset ?_
  simp only [InDmem, Reserved, Config.dmemSize] at h ⊢
  omega

/-- The access's first window byte is not reserved. -/
theorem reservedAccess_of_inWindow {o n : Nat} (h : InWindow o n) : reservedAccess o n = false := by
  simp only [InWindow, Config.dmemSize] at h
  by_cases hin : 0x10000 ≤ o
  · refine reservedAccess_of_offset ?_
    simp only [Reserved, Config.dmemSize]
    omega
  · refine reservedAccess_of_not_reserved (j := 0x10000 - o) (by omega) ?_
    simp only [Reserved, Config.dmemSize]
    omega

section
variable {o n : Nat} (v : Word) (s : State)

theorem hostRead_of_inDmem (h : InDmem o) : hostRead o n s =
    if s.busy then .refused .dmemWhileBusy
    else if naturalAccess o n ∧ o + n ≤ dmemBase + Config.dmemSize then
      s.readSource ⟨o - dmemBase, n⟩ fun bs => s.answerRead (littleEndianWord bs)
    else .refused .dmemAccessForm := by
  rw [hostRead, reservedAccess_of_inDmem h, if_neg Bool.false_ne_true, if_neg (show ¬ o < dmemBase from h.1.not_gt),
    if_pos (show o < dmemBase + Config.dmemSize from h.2)]

theorem hostWrite_of_inDmem (h : InDmem o) : hostWrite o n v s =
    if s.busy then .refused .dmemWhileBusy
    else if naturalAccess o n ∧ o + n ≤ dmemBase + Config.dmemSize then
      .next { s with dmem := s.dmem.writeBytes (o - dmemBase) (littleEndianBytes v n) }
    else .refused .dmemAccessForm := by
  rw [hostWrite, reservedAccess_of_inDmem h, if_neg Bool.false_ne_true, if_neg (show ¬ o < dmemBase from h.1.not_gt),
    if_pos (show o < dmemBase + Config.dmemSize from h.2)]

theorem not_lt_of_inWindow (h : InWindow o n) :
    ¬ o < dmemBase ∧ ¬ o < dmemBase + Config.dmemSize ∧ o < blockSize := by
  simp only [InWindow, dmemBase, blockSize, Config.dmemSize] at h ⊢
  omega

theorem hostRead_of_inWindow (h : InWindow o n) : hostRead o n s =
    if s.busy then .refused .windowWhileBusy
    else if naturalAccess o n then
      s.answerRead (littleEndianWord ((List.range n).map fun i => s.windowByte (o - windowBase + i)))
    else .refused .windowAccessForm := by
  obtain ⟨hreg, hdmem, hblock⟩ := not_lt_of_inWindow h
  rw [hostRead, reservedAccess_of_inWindow h, if_neg Bool.false_ne_true, if_neg hreg, if_neg hdmem, if_pos hblock]

theorem hostWrite_of_inWindow (h : InWindow o n) : hostWrite o n v s =
    if s.busy then .refused .windowWhileBusy else .next s := by
  obtain ⟨hreg, hdmem, hblock⟩ := not_lt_of_inWindow h
  rw [hostWrite, reservedAccess_of_inWindow h, if_neg Bool.false_ne_true, if_neg hreg, if_neg hdmem, if_pos hblock]

end

theorem hostMovesNext_of_idle {s : State} (hnone : s.inFlight = none) {a : HostAccess} {rest : List HostAccess}
    (hq : s.hostQueue = a :: rest) : HostMovesNext s a rest :=
  ⟨hq, by simp [hnone]⟩

theorem not_busy_waited {s : State} (h : s.inFlight = none) (rest : List HostAccess) :
    ¬ (waited s rest).busy = true := by
  rw [waited_busy, State.busy, h]
  exact Bool.false_ne_true

theorem busy_waited {s : State} (h : s.inFlight ≠ none) (rest : List HostAccess) : (waited s rest).busy = true := by
  rw [waited_busy, State.busy]
  exact Option.isSome_iff_ne_none.mpr h

theorem waited_of_idle {s : State} (h : s.inFlight = none) (rest : List HostAccess) :
    waited s rest = { s with hostQueue := rest } := by
  rw [waited, h]
  rfl

/-! ## DMEM -/

section
variable {s : State} {a n : Nat} {rest : List HostAccess} (hn : n = 1 ∨ n = 2 ∨ n = 4) (ha : a % n = 0)
  (hlt : a < Config.dmemSize) (hnone : s.inFlight = none)
include hn ha hlt

theorem natural_dmem_access : InDmem (0x1000 + a) ∧
    naturalAccess (0x1000 + a) n ∧ 0x1000 + a + n ≤ dmemBase + Config.dmemSize := by
  simp only [InDmem, dmemBase, Config.dmemSize, naturalAccess_iff] at hlt ⊢
  obtain rfl | rfl | rfl := hn <;> omega

include hnone

theorem step_of_dmemRead (hq : s.hostQueue = .read (0x1000 + a) n :: rest) :
    step s = s.readSource ⟨a, n⟩ fun bs => .next { s with hostQueue := rest, readData := some (littleEndianWord bs) } := by
  obtain ⟨hin, hnatural⟩ := natural_dmem_access hn ha hlt
  rw [step_of_hostMovesNext (hostMovesNext_of_idle hnone hq), performAccess, hostRead_of_inDmem _ hin,
    if_neg (not_busy_waited hnone rest), if_pos hnatural, waited_of_idle hnone,
    show 0x1000 + a - dmemBase = a from Nat.add_sub_cancel_left ..]
  rfl

theorem step_of_dmemWrite {v : Word} (hq : s.hostQueue = .write (0x1000 + a) n v :: rest) :
    step s = .next { s with hostQueue := rest, dmem := s.dmem.writeBytes a (littleEndianBytes v n) } := by
  obtain ⟨hin, hnatural⟩ := natural_dmem_access hn ha hlt
  rw [step_of_hostMovesNext (hostMovesNext_of_idle hnone hq), performAccess, hostWrite_of_inDmem _ _ hin,
    if_neg (not_busy_waited hnone rest), if_pos hnatural, waited_of_idle hnone,
    show 0x1000 + a - dmemBase = a from Nat.add_sub_cancel_left ..]

end

/-- Settles O14: the bytes written are the word's, and a read puts them together again. -/
theorem dmemAccessesAreLittleEndian : Obligations.DmemAccessesAreLittleEndian := by
  intro s a n v rest hn ha hlt hnone hq
  have hlen := Steps.length_littleEndianBytes v n
  have hread := Memory.readBytes_writeBytes s.dmem a (littleEndianBytes v n)
  rw [hlen] at hread
  refine ⟨_, _, step_of_dmemWrite hn ha hlt hnone hq, fun j hj => ?_, fun b hb => ?_, ?_, rfl⟩
  · rw [Memory.read_writeBytes (hlen.symm ▸ hj), littleEndianBytes, List.getElem?_map, List.getElem?_range hj]
    rfl
  · exact Memory.read_writeBytes_other (hlen.symm ▸ hb)
  · have hstep := step_of_dmemRead (s := { s with
      hostQueue := .read (0x1000 + a) n :: rest, dmem := s.dmem.writeBytes a (littleEndianBytes v n) })
      hn ha hlt hnone rfl
    rwa [State.readSource_of_some hread, littleEndianWord_littleEndianBytes v (by omega)] at hstep

/-! ## The window -/

/-- The window byte of cell (r, c) (R62). -/
theorem windowByte_eq (s : State) (r : Nat) {c : Nat} (hc : c < 256) : s.windowByte (256 * r + c) =
    if s.phase ≠ .empty ∧ r < s.width.toNat ∧ c < s.width.toNat then
      BitVec.ofNat 8 ((if (s.matrix.cell r c).rsv then 2 else 0) + (if (s.matrix.cell r c).dark then 1 else 0))
    else 0 := by
  have hrow : (256 * r + c) / 256 = r ∧ (256 * r + c) % 256 = c := by omega
  rw [State.windowByte, hrow.1, hrow.2]
  cases (s.matrix.cell r c).rsv <;> cases (s.matrix.cell r c).dark <;> rfl

/-- The `n` bytes of the window from `o` on, as a read delivers them. -/
def windowBytes (s : State) (o n : Nat) : List Byte := (List.range n).map fun i => s.windowByte (o + i)

@[simp] theorem length_windowBytes (s : State) (o n : Nat) : (windowBytes s o n).length = n := by simp [windowBytes]

theorem getD_windowBytes (s : State) (o : Nat) {n j : Nat} (hj : j < n) :
    (windowBytes s o n).getD j 0 = s.windowByte (o + j) := by
  simp [windowBytes, hj]

theorem step_of_windowRead {s : State} {o n : Nat} {rest : List HostAccess} (hin : InWindow (0x10000 + o) n)
    (hnatural : naturalAccess (0x10000 + o) n = true) (hnone : s.inFlight = none)
    (hq : s.hostQueue = .read (0x10000 + o) n :: rest) :
    step s = .next { s with hostQueue := rest, readData := some (littleEndianWord (windowBytes s o n)) } := by
  rw [step_of_hostMovesNext (hostMovesNext_of_idle hnone hq), performAccess, hostRead_of_inWindow _ hin,
    if_neg (not_busy_waited hnone rest), if_pos hnatural, waited_of_idle hnone,
    show 0x10000 + o - windowBase = o by unfold windowBase; omega]
  rfl

/-- Settles O15: a read puts the window bytes together; a write that reaches the window does nothing. -/
theorem windowShowsTheWorkingMatrix : Obligations.WindowShowsTheWorkingMatrix := by
  intro s rest hnone
  refine ⟨fun r c n hr hc hn ha hq => ?_, fun o n v hlow hhigh hreach hq => ?_⟩
  · have hin : InWindow (0x10000 + 256 * r + c) n := ⟨by omega, .inl (by omega)⟩
    have hnatural : naturalAccess (0x10000 + 256 * r + c) n = true := by
      rw [naturalAccess_iff]
      obtain rfl | rfl | rfl := hn <;> omega
    have hn4 : n ≤ 4 := by omega
    have hlen : (windowBytes s (256 * r + c) n).length ≤ 4 := by simpa using hn4
    refine ⟨littleEndianWord (windowBytes s (256 * r + c) n), ?_, fun j hj => ?_, ?_⟩
    · rw [Nat.add_assoc] at hin hnatural hq
      exact step_of_windowRead hin hnatural hnone hq
    · have hj256 : c + j < 256 := by obtain rfl | rfl | rfl := hn <;> omega
      rw [extractLsb'_littleEndianWord hlen, getD_windowBytes s _ hj, Nat.add_assoc]
      exact windowByte_eq s r hj256
    · exact (toNat_littleEndianWord_lt hlen).trans_eq (by rw [length_windowBytes])
  · rw [step_of_hostMovesNext (hostMovesNext_of_idle hnone hq), performAccess,
      hostWrite_of_inWindow _ _ ⟨hhigh, .inr ⟨hlow, hreach⟩⟩, if_neg (not_busy_waited hnone rest), waited_of_idle hnone]

/-! ## Reserved offsets and refusals -/

/-- Settles O16: each form is an access of reserved bytes, the first row of both accesses. -/
theorem reservedOffsetsReadZero : Obligations.ReservedOffsetsReadZero := by
  intro s o n v rest ho hform
  have hres := reservedAccess_of_reserved ho hform
  refine ⟨fun h => ?_, fun h => ?_⟩
  · rw [step_of_hostMovesNext h, performAccess, hostRead, if_pos hres]
    rfl
  · rw [step_of_hostMovesNext h, performAccess, hostWrite, if_pos hres]

/-- Settles O17: the region decides the name, after BUSY and the form. -/
theorem refusedAccesses : Obligations.RefusedAccesses := by
  intro s rest v o n natural inDmem inWindow readStops writeStops
  refine ⟨fun ho hbyte hform => ?_, fun hin hform hnone => ?_, fun hin hform hnone => ?_, fun hin hbusy => ?_,
    fun hin hbusy => ?_⟩
  · obtain ⟨j, hj, hnot⟩ := hbyte
    have hres := reservedAccess_of_not_reserved hj hnot
    refine ⟨fun h => ?_, fun h => ?_⟩
    · rw [step_of_hostMovesNext h, performAccess, hostRead, hres, if_neg Bool.false_ne_true,
        if_pos (show o < dmemBase from ho), if_neg hform]
    · rw [step_of_hostMovesNext h, performAccess, hostWrite, hres, if_neg Bool.false_ne_true,
        if_pos (show o < dmemBase from ho), if_neg hform]
  · have hnot : ¬(naturalAccess o n ∧ o + n ≤ dmemBase + Config.dmemSize) := fun h => hform (naturalAccess_iff.mp h.1)
    refine ⟨fun h => ?_, fun h => ?_⟩
    · rw [step_of_hostMovesNext h, performAccess, hostRead_of_inDmem _ hin, if_neg (not_busy_waited hnone rest), if_neg hnot]
    · rw [step_of_hostMovesNext h, performAccess, hostWrite_of_inDmem _ _ hin, if_neg (not_busy_waited hnone rest),
        if_neg hnot]
  · intro h
    rw [step_of_hostMovesNext h, performAccess, hostRead_of_inWindow _ hin, if_neg (not_busy_waited hnone rest),
      if_neg fun hnatural => hform (naturalAccess_iff.mp hnatural)]
  · refine ⟨fun h => ?_, fun h => ?_⟩
    · rw [step_of_hostMovesNext h, performAccess, hostRead_of_inDmem _ hin, if_pos (busy_waited hbusy rest)]
    · rw [step_of_hostMovesNext h, performAccess, hostWrite_of_inDmem _ _ hin, if_pos (busy_waited hbusy rest)]
  · refine ⟨fun h => ?_, fun h => ?_⟩
    · rw [step_of_hostMovesNext h, performAccess, hostRead_of_inWindow _ hin, if_pos (busy_waited hbusy rest)]
    · rw [step_of_hostMovesNext h, performAccess, hostWrite_of_inWindow _ _ hin, if_pos (busy_waited hbusy rest)]

end Sys2Proof.MemoryAccess
end

section
/-! PROOF. NOP and the scalar commands (R112 to R118 of 40_gf.md, R240 of 45_system.md). The product by tables is linear in each
operand and doubles with it, so it is the product reduced bit by bit; quotients, powers and logarithms are those of the
multiplicative group, whose elements are the powers of 2. -/

namespace Sys2Proof.ScalarCommands

open Sys2Proof Sys2Proof.Machine Sys2Proof.FieldArithmetic Sys2Proof.ReedSolomon

/-- Settles O19: NOP is the completion alone. -/
theorem nopOnlyCompletes : Obligations.NopOnlyCompletes :=
  fun _ _ hc => State.withCommand_of_some hc

/-! ## The product (R4, R105) -/

/-- A product by 2^i is i doublings. -/
theorem gfmul_powerOfTwo_right (a : Byte) (i : Nat) : gfmul a (powerOfTwo i) = timesTwo^[i] a := by
  by_cases ha : a = 0
  · rw [ha, zero_gfmul, iterate_timesTwo_zero]
  · obtain ⟨k, rfl⟩ := exists_powerOfTwo_eq ha
    rw [gfmul_powerOfTwo, iterate_timesTwo_powerOfTwo, Nat.add_comm]

/-- A byte is the sum of the powers of 2 at its bits. -/
theorem foldl_powerOfTwo_bits : ∀ b : Byte,
    ((List.range 8).filter b.getLsbD).foldl (fun acc i => gfadd acc (powerOfTwo i)) 0 = b := by
  decide +kernel

/-- A product distributes over a sum of powers of 2. -/
theorem gfmul_foldl_powerOfTwo (a : Byte) (l : List Nat) (acc : Byte) :
    gfmul a (l.foldl (fun acc i => gfadd acc (powerOfTwo i)) acc) =
      l.foldl (fun acc i => gfadd acc (timesTwo^[i] a)) (gfmul a acc) := by
  induction l generalizing acc with
  | nil => rfl
  | cons i l ih => rw [List.foldl_cons, List.foldl_cons, ih, gfmul_gfadd, gfmul_powerOfTwo_right]

/-- The product reduced bit by bit, over the bits of `b`. -/
theorem reducedProduct_eq_foldl (a b : Byte) :
    reducedProduct a b = ((List.range 8).filter b.getLsbD).foldl (fun acc i => gfadd acc (timesTwo^[i] a)) 0 := by
  have hzip : ([a, timesTwo a, timesTwo (timesTwo a), timesTwo (timesTwo (timesTwo a))] ++
      [timesTwo^[4] a, timesTwo (timesTwo^[4] a), timesTwo (timesTwo (timesTwo^[4] a)),
        timesTwo (timesTwo (timesTwo (timesTwo^[4] a)))]).zipIdx = (List.range 8).map fun i => (timesTwo^[i] a, i) := rfl
  have hfold : reducedProduct a b = (((List.range 8).map fun i => (timesTwo^[i] a, i)).filter fun x => b.getLsbD x.2).foldl
      (fun acc x => acc ^^^ x.1) 0 := congrArg (fun l => (l.filter fun x : Byte × Nat => b.getLsbD x.2).foldl
        (fun acc x => acc ^^^ x.1) 0) hzip
  rw [hfold, List.filter_map, List.foldl_map]
  rfl

theorem gfmul_eq_reducedProduct (a b : Byte) : gfmul a b = reducedProduct a b := by
  rw [reducedProduct_eq_foldl, ← gfmul_zero a, ← gfmul_foldl_powerOfTwo, foldl_powerOfTwo_bits]

/-- Settles O21: the table's product is the reduced one. -/
theorem gfMulCompletesWithReducedProduct : Obligations.GfMulCompletesWithReducedProduct := by
  intro s c a b hc
  rw [← gfmul_eq_reducedProduct]
  exact withCommand_res0_succeed hc (zext (gfmul a b))

/-! ## Quotient, power, exponent and logarithm -/

/-- Products by a nonzero byte are different for different bytes. -/
theorem gfmul_right_cancel {b p q : Byte} (hb : b ≠ 0) (h : gfmul p b = gfmul q b) : p = q := by
  obtain ⟨r, -, hr⟩ := exists_gfdiv_gfmul_eq (a := 1) (by decide) hb
  have hinv : ∀ x, gfmul (gfmul x b) r = x := fun x => by rw [gfmul_assoc, gfmul_comm b r, hr, gfmul_one]
  rw [← hinv p, h, hinv]

theorem exists_quotient (a : Byte) {b : Byte} (hb : b ≠ 0) : ∃ q, gfdiv a b = some q ∧ gfmul q b = a := by
  by_cases ha : a = 0
  · exact ⟨0, by rw [gfdiv, if_neg hb, if_pos ha], by rw [zero_gfmul, ha]⟩
  · exact exists_gfdiv_gfmul_eq ha hb

/-- Settles O22: there is a quotient, and products by B tell bytes apart. -/
theorem gfDivCompletesWithUniqueQuotient : Obligations.GfDivCompletesWithUniqueQuotient := by
  intro s c a b hc hb
  obtain ⟨q, hdiv, hq⟩ := exists_quotient a hb
  refine ⟨q, ?_, hq, fun q' hq' => gfmul_right_cancel hb (hq'.trans hq.symm)⟩
  refine (State.withCommand_of_some hc).trans ?_
  simp only [hdiv]
  rfl

theorem foldedProduct_powerOfTwo (i e : Nat) : foldedProduct (powerOfTwo i) e = powerOfTwo (i * e) := by
  induction e with
  | zero => rfl
  | succ e ih => rw [foldedProduct, ih, gfmul_powerOfTwo, Nat.mul_succ, Nat.add_comm]

/-- The power by tables is the folded product, and 0^0 has none. -/
theorem gfpow_eq_foldedProduct {a : Byte} {e : Nat} (h : ¬(a = 0 ∧ e = 0)) : gfpow a e = some (foldedProduct a e) := by
  by_cases ha : a = 0
  · obtain ⟨e, rfl⟩ := Nat.exists_eq_succ_of_ne_zero fun he => h ⟨ha, he⟩
    rw [gfpow, if_neg h, if_pos ha, foldedProduct, ha, zero_gfmul]
  · rw [gfpow_of_ne_zero ha, ← foldedProduct_powerOfTwo, powerOfTwo_logAt ha]

/-- Settles O23: the power is the folded product. -/
theorem gfPowCompletesWithFoldedProduct : Obligations.GfPowCompletesWithFoldedProduct := by
  intro s c a e hc hne
  have hpow := gfpow_eq_foldedProduct (a := a) (e := e.toNat) fun h => hne ⟨h.1, BitVec.eq_of_toNat_eq h.2⟩
  refine (State.withCommand_of_some hc).trans ?_
  simp only [hpow]
  rfl

/-- Settles O24: EXP holds the powers of 2, and LOG their exponents. -/
theorem gfExpAndLogCompleteWithTableValues : Obligations.GfExpAndLogCompleteWithTableValues := by
  intro s c a hc
  refine ⟨fun ha => ?_, fun ha => ⟨logAt a, logAt_lt ha, powerOfTwo_logAt ha, ?_⟩⟩
  · have hlt : a.toNat < 255 := by
      have hne : a.toNat ≠ 255 := fun h => ha (BitVec.eq_of_toNat_eq h)
      have hle := a.isLt
      omega
    rw [powerOfTwo_eq_expAt, Nat.mod_eq_of_lt hlt]
    exact (State.withCommand_of_some hc).trans (if_neg ha)
  · exact (State.withCommand_of_some hc).trans (if_neg ha)

/-- Settles O25: each error's test is met. -/
theorem scalarValueErrors : Obligations.ScalarValueErrors :=
  fun _ _ hc => ⟨fun _ => State.withCommand_of_some hc, State.withCommand_of_some hc, State.withCommand_of_some hc,
    State.withCommand_of_some hc⟩

end Sys2Proof.ScalarCommands
end

section
/-! PROOF. Products and remainders of polynomials (R109, R110 of 40_gf.md). Coefficient k of Horner's product is the convolution's
sum over i + j = k; each round of synthetic division takes off one multiple of the divisor, so the rounds leave p = q·d + r. -/

namespace Sys2Proof.Polynomials

open Sys2Proof Sys2Proof.Machine Sys2Proof.FieldArithmetic Sys2Proof.ReedSolomon

/-! ## The product is the convolution (R109) -/

/-- Coefficient k of the convolution. -/
def convolutionCoeff (a b : List Byte) (k : Nat) : Byte :=
  (List.range a.length).foldl
    (fun acc i => if i ≤ k ∧ k - i < b.length then acc ^^^ gfmul (a.getD i 0) (b.getD (k - i) 0) else acc) 0

theorem convolution_eq_map (a b : List Byte) :
    convolution a b = (List.range (a.length + b.length - 1)).map (convolutionCoeff a b) := rfl

/-- A conditional sum, from any start. -/
theorem foldl_ite_xor (l : List Nat) (p : Nat → Prop) [DecidablePred p] (f : Nat → Byte) (start : Byte) :
    l.foldl (fun acc i => if p i then acc ^^^ f i else acc) start =
      gfadd start (l.foldl (fun acc i => if p i then acc ^^^ f i else acc) 0) := by
  induction l generalizing start with
  | nil => exact (gfadd_zero start).symm
  | cons i l ih =>
    rw [List.foldl_cons, List.foldl_cons, ih, ih (if p i then 0 ^^^ f i else 0)]
    split
    · change gfadd (gfadd start (f i)) _ = gfadd start (gfadd (gfadd 0 (f i)) _)
      rw [zero_gfadd, gfadd_assoc]
    · rw [zero_gfadd]

/-- The first coefficient of `a` adds its multiple of `b`; the others add up one place lower. -/
theorem convolutionCoeff_cons (x : Byte) (a b : List Byte) (k : Nat) :
    convolutionCoeff (x :: a) b k =
      gfadd (gfmul x (b.getD k 0)) (if k = 0 then 0 else convolutionCoeff a b (k - 1)) := by
  have hfirst : (if 0 ≤ k ∧ k - 0 < b.length then 0 ^^^ gfmul ((x :: a).getD 0 0) (b.getD (k - 0) 0) else 0) =
      gfmul x (b.getD k 0) := by
    by_cases hk : k < b.length
    · simp [hk]
    · rw [if_neg (by simpa using hk), List.getD_eq_default _ _ (not_lt.mp hk), gfmul_zero]
  have hrest : (List.range a.length).foldl (fun acc i => if i + 1 ≤ k ∧ k - (i + 1) < b.length then
      acc ^^^ gfmul ((x :: a).getD (i + 1) 0) (b.getD (k - (i + 1)) 0) else acc) 0 =
      if k = 0 then 0 else convolutionCoeff a b (k - 1) := by
    cases k with
    | zero => simp
    | succ k => simp [convolutionCoeff]
  rw [convolutionCoeff, List.length_cons, List.range_succ_eq_map, List.foldl_cons, List.foldl_map, hfirst, foldl_ite_xor,
    hrest]

theorem getD_xorPrefix {p q : List Byte} (h : q.length ≤ p.length) (k : Nat) :
    (xorPrefix p q).getD k 0 = gfadd (p.getD k 0) (q.getD k 0) := by
  induction p, q using xorPrefix.induct generalizing k with
  | case1 p => rw [xorPrefix_nil, List.getD_nil, gfadd_zero]
  | case2 y q => simp at h
  | case3 x p y q ih =>
    cases k with
    | zero => simp [xorPrefix]
    | succ k => simpa [xorPrefix] using ih (by simpa using h) k

theorem getD_map_gfmul (x : Byte) (b : List Byte) (k : Nat) : (b.map (gfmul x)).getD k 0 = gfmul x (b.getD k 0) := by
  by_cases hk : k < b.length
  · simp [hk]
  · rw [List.getD_eq_default _ _ (by simpa using hk), List.getD_eq_default _ _ (not_lt.mp hk), gfmul_zero]

theorem getD_polymul (a b : List Byte) (k : Nat) : (polymul a b).getD k 0 = convolutionCoeff a b k := by
  induction a, b using polymul.induct generalizing k with
  | case1 b => rfl
  | case2 x b =>
    have hnil : convolutionCoeff [] b (k - 1) = 0 := rfl
    rw [polymul, getD_map_gfmul, convolutionCoeff_cons, hnil, ite_self, gfadd_zero]
  | case3 x y a b ih =>
    have hlen : (b.map (gfmul x)).length ≤ (0 :: polymul (y :: a) b).length := by
      rw [List.length_map, List.length_cons, length_polymul_cons]
      omega
    rw [polymul, getD_xorPrefix hlen, getD_map_gfmul, convolutionCoeff_cons, gfadd_comm]
    cases k with
    | zero => rfl
    | succ k => rw [List.getD_cons_succ, ih, if_neg k.succ_ne_zero, Nat.succ_sub_one]

theorem polymul_eq_convolution {a : List Byte} (b : List Byte) (ha : 1 ≤ a.length) : polymul a b = convolution a b := by
  rw [convolution_eq_map]
  refine List.ext_getElem ?_ fun k hk hk' => ?_
  · rw [CommandEffects.length_polymul ha, List.length_map, List.length_range]
  · rw [List.getElem_map, List.getElem_range, ← getD_polymul, List.getD_eq_getElem _ _ hk]

theorem length_convolution (a b : List Byte) : (convolution a b).length = a.length + b.length - 1 := by
  rw [convolution_eq_map, List.length_map, List.length_range]

/-! ## The remainder (R110) -/

theorem xorPrefix_zeros (p : List Byte) (n : Nat) : xorPrefix p (zeros n) = p := by
  induction p generalizing n with
  | nil => rw [nil_xorPrefix]
  | cons x p ih =>
    cases n with
    | zero => exact xorPrefix_nil _
    | succ n => rw [zeros_succ, xorPrefix, gfadd_zero, ih]

/-- Adding the same coefficients twice changes nothing. -/
theorem xorPrefix_xorPrefix_self (p q : List Byte) : xorPrefix (xorPrefix p q) q = p := by
  induction p, q using xorPrefix.induct with
  | case1 p => rw [xorPrefix_nil, xorPrefix_nil]
  | case2 y q => rfl
  | case3 x p y q ih => rw [xorPrefix, xorPrefix, ih, gfadd_assoc, gfadd_self, gfadd_zero]

theorem xorPrefix_comm {p q : List Byte} (h : p.length = q.length) : xorPrefix p q = xorPrefix q p := by
  induction p, q using xorPrefix.induct with
  | case1 p =>
    obtain rfl := List.length_eq_zero_iff.mp h
    rfl
  | case2 y q => cases h
  | case3 x p y q ih => rw [xorPrefix, xorPrefix, ih (by simpa using h), gfadd_comm]

theorem zipWith_gfadd_eq_xorPrefix {p q : List Byte} (h : p.length = q.length) :
    List.zipWith gfadd p q = xorPrefix p q := by
  induction p, q using xorPrefix.induct with
  | case1 p =>
    obtain rfl := List.length_eq_zero_iff.mp h
    rfl
  | case2 y q => cases h
  | case3 x p y q ih => rw [List.zipWith_cons_cons, xorPrefix, ih (by simpa using h)]

/-- A round needs no test for a leading 0, whose multiple of the divisor is 0. -/
theorem synthDivide_cons (t : List Byte) (n : Nat) (c : Byte) (r : List Byte) :
    synthDivide t (n + 1) (c :: r) = synthDivide t n (xorPrefix r (t.map (gfmul c))) := by
  rw [synthDivide]
  split
  next hc =>
    have hzeros : t.map (gfmul c) = zeros t.length := by
      rw [hc, show gfmul 0 = fun _ => 0 from funext zero_gfmul, List.map_const', zeros]
    rw [hzeros, xorPrefix_zeros]
  next => rw [show (fun x => gfmul x c) = gfmul c from funext fun x => gfmul_comm x c]

/-- Each round's leading coefficient is a coefficient of the quotient. -/
theorem exists_quotient_synthDivide (t : List Byte) {n : Nat} (hn : 1 ≤ n) {r : List Byte} (h : r.length = n + t.length) :
    ∃ q : List Byte, q.length = n ∧ r = xorPrefix (polymul q (1 :: t)) (zeros n ++ synthDivide t n r) := by
  induction n, hn using Nat.le_induction generalizing r with
  | base =>
    obtain ⟨c, r, rfl⟩ := List.exists_cons_of_length_pos (l := r) (by omega)
    have hlen : r.length = (t.map (gfmul c)).length := by
      rw [List.length_cons] at h
      rw [List.length_map]
      omega
    refine ⟨[c], rfl, ?_⟩
    calc c :: r = c :: xorPrefix (xorPrefix r (t.map (gfmul c))) (t.map (gfmul c)) := by rw [xorPrefix_xorPrefix_self]
      _ = c :: xorPrefix (t.map (gfmul c)) (xorPrefix r (t.map (gfmul c))) := by
        rw [xorPrefix_comm (by rw [length_xorPrefix, hlen])]
      _ = xorPrefix (polymul [c] (1 :: t)) (zeros 1 ++ synthDivide t 1 (c :: r)) := by
        rw [synthDivide_cons, synthDivide, polymul, List.map_cons, gfmul_one, zeros_succ, List.cons_append, xorPrefix,
          gfadd_zero]
        rfl
  | succ n hn ih =>
    obtain ⟨c, r, rfl⟩ := List.exists_cons_of_length_pos (l := r) (by omega)
    obtain ⟨q, hq, hr⟩ := ih (r := xorPrefix r (t.map (gfmul c))) (by
      rw [List.length_cons] at h
      rw [length_xorPrefix]
      omega)
    obtain ⟨y, q, rfl⟩ := List.exists_cons_of_length_pos (l := q) (by omega)
    refine ⟨c :: y :: q, by rw [List.length_cons, hq], ?_⟩
    rw [synthDivide_cons, polymul, List.map_cons, gfmul_one, zeros_succ, List.cons_append, xorPrefix, xorPrefix,
      zero_gfadd, gfadd_zero, xorPrefix_right_comm, ← hr, xorPrefix_xorPrefix_self]

theorem polymod_of_length_le {p d : List Byte} (h : p.length ≤ d.length - 1) :
    polymod p d = zeros (d.length - 1 - p.length) ++ p := by
  have hpadded : (if p.length < d.length - 1 then zeros (d.length - 1 - p.length) ++ p else p) =
      zeros (d.length - 1 - p.length) ++ p := by
    split
    · rfl
    · rw [show d.length - 1 - p.length = 0 by omega]
      rfl
  have hrounds : (zeros (d.length - 1 - p.length) ++ p).length - (d.length - 1) = 0 := by
    rw [List.length_append, length_zeros]
    omega
  simp only [polymod, hpadded, hrounds, synthDivide]

theorem polymod_of_length_gt {p d : List Byte} (h : d.length - 1 < p.length) :
    polymod p d = synthDivide d.tail (p.length - (d.length - 1)) p := by
  simp only [polymod, if_neg (show ¬ p.length < d.length - 1 by omega)]

theorem isRemainder_polymod {d : List Byte} (hd : d.head? = some 1) (p : List Byte) : IsRemainder p d (polymod p d) := by
  obtain ⟨t, rfl⟩ : ∃ t, d = 1 :: t := List.head?_eq_some_iff.mp hd
  have hlen : (polymod p (1 :: t)).length = t.length := CommandEffects.length_polymod p (1 :: t)
  refine ⟨hlen, fun hle => ?_, fun hlt => ?_⟩
  · rw [hlen] at hle ⊢
    exact polymod_of_length_le hle
  · rw [hlen] at hlt ⊢
    obtain ⟨q, hq, hp⟩ := exists_quotient_synthDivide t (n := p.length - t.length) (r := p) (by omega) (by omega)
    have hdiv : polymod p (1 :: t) = synthDivide t (p.length - t.length) p := polymod_of_length_gt hlt
    refine ⟨q, hq, ?_⟩
    rw [hdiv, hq, zipWith_gfadd_eq_xorPrefix, ← polymul_eq_convolution _ (by omega)]
    · exact hp
    · rw [length_convolution, List.length_append, length_zeros, length_synthDivide, hq, List.length_cons]
      omega

end Sys2Proof.Polynomials
end

section
/-! PROOF. The commands over DMEM (R119, R120 of 40_gf.md, R145, R146 of 41_rs.md, R65 to R68 of 20_memory.md): each answers by its
plan, a refused operand by its report, unwritten source bytes by a fault, and otherwise by its result stored at its place. -/

namespace Sys2Proof.DmemCommands

open Sys2Proof Sys2Proof.Machine Sys2Proof.OperandChecks Sys2Proof.CorrectCaches Sys2Proof.Polynomials

/-! ## Stores and source reads -/

theorem storesExactly_writeBytes (m : Memory) (a : Nat) (bs : List Byte) : StoresExactly m (m.writeBytes a bs) a bs :=
  ⟨Memory.readBytes_writeBytes m a bs, fun _ h => Memory.read_writeBytes_other h⟩

theorem readSource_of_none {s : State} {sp : Span} (h : s.dmem.readBytes sp.addr sp.len = none)
    (k : List Byte → Result) : s.readSource sp k = .fault .dmemUnwritten := by
  rw [State.readSource, h]

/-- Of two sources, one with an unwritten byte is enough for the fault. -/
theorem readSource_readSource_of_none {s : State} {sp sp' : Span} (k : List Byte → List Byte → Result)
    (h : s.dmem.readBytes sp.addr sp.len = none ∨ s.dmem.readBytes sp'.addr sp'.len = none) :
    (s.readSource sp fun a => s.readSource sp' fun b => k a b) = .fault .dmemUnwritten := by
  cases ha : s.dmem.readBytes sp.addr sp.len with
  | none => exact readSource_of_none ha _
  | some a => exact (State.readSource_of_some ha).trans (readSource_of_none (h.resolve_left (by simp [ha])) _)

theorem readBytes_eq_none {m : Memory} {a n j : Nat} (hj : j < n) (h : m.read (a + j) = none) : m.readBytes a n = none := by
  induction n generalizing a j with
  | zero => cases hj
  | succ n ih =>
    cases j with
    | zero => simp only [Memory.readBytes, show m.read a = none from h]
    | succ j =>
      have hrest : m.readBytes (a + 1) n = none := ih (j := j) (by omega) (by rwa [Nat.add_assoc, Nat.add_comm 1])
      simp only [Memory.readBytes, hrest]
      cases m.read a <;> rfl

/-! ## POLY.MUL -/

section
variable {s : State} {c : InFlight} (hc : s.inFlight = some c)
include hc

theorem exec_polyMul_of_error {e : CommandError} (h : polyMulPlan c = .error e) : exec .polyMul s = .next (s.raise e) := by
  refine (State.withCommand_of_some hc).trans ?_
  simp only [h]

theorem exec_polyMul_of_unwritten {p : TwoSources} (h : polyMulPlan c = .ok p)
    (hsrc : s.dmem.readBytes p.a.addr p.a.len = none ∨ s.dmem.readBytes p.b.addr p.b.len = none) :
    exec .polyMul s = .fault .dmemUnwritten := by
  refine (State.withCommand_of_some hc).trans ?_
  simp only [h]
  exact readSource_readSource_of_none _ hsrc

theorem exec_polyMul_of_ok {p : TwoSources} {a b : List Byte} (h : polyMulPlan c = .ok p)
    (ha : s.dmem.readBytes p.a.addr p.a.len = some a) (hb : s.dmem.readBytes p.b.addr p.b.len = some b) :
    exec .polyMul s = .next (completed { s with
      dmem := s.dmem.writeBytes p.dst.addr (polymul a b), res0 := word p.dst.len }) := by
  refine (State.withCommand_of_some hc).trans ?_
  simp only [h]
  rw [State.readSource_of_some ha, State.readSource_of_some hb]
  rfl

/-! ## POLY.MOD -/

theorem exec_polyMod_of_error {e : CommandError} (h : polyModPlan c = .error e) : exec .polyMod s = .next (s.raise e) := by
  refine (State.withCommand_of_some hc).trans ?_
  simp only [h]

theorem exec_polyMod_of_unwritten {p : TwoSources} (h : polyModPlan c = .ok p)
    (hsrc : s.dmem.readBytes p.a.addr p.a.len = none ∨ s.dmem.readBytes p.b.addr p.b.len = none) :
    exec .polyMod s = .fault .dmemUnwritten := by
  refine (State.withCommand_of_some hc).trans ?_
  simp only [h]
  exact readSource_readSource_of_none _ hsrc

/-- With its operands read, POLY.MOD tests the divisor's first coefficient (R120). -/
theorem exec_polyMod_of_ok {p : TwoSources} {a d : List Byte} (h : polyModPlan c = .ok p)
    (ha : s.dmem.readBytes p.a.addr p.a.len = some a) (hd : s.dmem.readBytes p.b.addr p.b.len = some d) :
    exec .polyMod s =
      if d.headD 0 ≠ 1 then .next (reported s 0x0B 0 (zext (d.headD 0)))
      else .next (completed { s with dmem := s.dmem.writeBytes p.dst.addr (polymod a d), res0 := word p.dst.len }) := by
  refine (State.withCommand_of_some hc).trans ?_
  simp only [h]
  rw [State.readSource_of_some ha, State.readSource_of_some hd]
  rfl

/-! ## RS.GEN and RS.ECC -/

theorem exec_rsGen_of_error {n : BitVec 8} {e : CommandError} (h : rsGenPlan n c = .error e) :
    exec (.rsGen n) s = .next (s.raise e) := by
  refine (State.withCommand_of_some hc).trans ?_
  simp only [h]

theorem exec_rsGen_of_ok {n : BitVec 8} {dst : Span} (hcaches : CachesCorrect s) (h : rsGenPlan n c = .ok dst) :
    exec (.rsGen n) s = .next (completed { s with
      dmem := s.dmem.writeBytes dst.addr (gen n.toNat), res0 := word dst.len
      genCache := cachePublish s.genCache n.toNat (gen n.toNat) }) := by
  refine (State.withCommand_of_some hc).trans ?_
  simp only [h, State.publishGenerator, generator_of_cachesCorrect hcaches]
  rfl

theorem exec_rsEcc_of_error {n : BitVec 8} {e : CommandError} (h : rsEccPlan n c = .error e) :
    exec (.rsEcc n) s = .next (s.raise e) := by
  refine (State.withCommand_of_some hc).trans ?_
  simp only [h]

theorem exec_rsEcc_of_unwritten {n : BitVec 8} {p : OneSource} (h : rsEccPlan n c = .ok p)
    (hsrc : s.dmem.readBytes p.src.addr p.src.len = none) : exec (.rsEcc n) s = .fault .dmemUnwritten := by
  refine (State.withCommand_of_some hc).trans ?_
  simp only [h]
  exact readSource_of_none hsrc _

theorem exec_rsEcc_of_ok {n : BitVec 8} {p : OneSource} {data : List Byte} (hcaches : CachesCorrect s)
    (h : rsEccPlan n c = .ok p) (hsrc : s.dmem.readBytes p.src.addr p.src.len = some data) :
    exec (.rsEcc n) s = .next (completed { s with
      dmem := s.dmem.writeBytes p.dst.addr (ecc data n.toNat), res0 := word p.dst.len
      genCache := cachePublish s.genCache n.toNat (gen n.toNat) }) := by
  refine (State.withCommand_of_some hc).trans ?_
  simp only [h, State.publishGenerator, generator_of_cachesCorrect hcaches]
  rw [State.readSource_of_some hsrc]
  rfl

/-! ## PLACE -/

theorem exec_place_of_phase (hphase : s.phase ≠ .template) :
    exec .place s = .next (reported s 0x02 0 (s.phase.code.setWidth 32)) :=
  (State.withCommand_of_some hc).trans (if_pos hphase)

theorem exec_place_of_error {e : CommandError} (hphase : s.phase = .template) (h : checkSource 0 0 c.arg0 = .error e) :
    exec .place s = .next (s.raise e) := by
  refine (State.withCommand_of_some hc).trans ((if_neg (not_not_intro hphase)).trans ?_)
  simp only [h]

/-- With an accepted source, PLACE compares its length with CAPACITY and then reads it (R195). -/
theorem exec_place_of_sourceOk (hphase : s.phase = .template) (h : SourceOk 0 c.arg0) :
    exec .place s =
      if 8 * (sourceSpan c.arg0).len > s.capacity.toNat then
        .next (reported s 0x0C 0 (word (8 * (sourceSpan c.arg0).len)))
      else s.readSource (sourceSpan c.arg0) fun bs => .next (completed { s with
        matrix := placeBits (zigzag s.matrix s.width.toNat) (sequenceBits bs) s.matrix
        placed := BitVec.ofNat 16 (8 * (sourceSpan c.arg0).len)
        phase := .placed
        res0 := word (8 * (sourceSpan c.arg0).len)
        res1 := word (s.capacity.toNat - 8 * (sourceSpan c.arg0).len) }) := by
  refine (State.withCommand_of_some hc).trans ((if_neg (not_not_intro hphase)).trans ?_)
  simp only [checkSource_of_ok h]
  rfl

end

/-! ## Completions -/

/-- Settles O27: the product is the convolution. -/
theorem polyMulCompletes : Obligations.PolyMulCompletes := by
  intro s c a b hc h0 h1 h2 ha hb
  have hlena : a.length = (sourceSpan c.arg0).len := Memory.length_readBytes ha
  have hlenb : b.length = (sourceSpan c.arg1).len := Memory.length_readBytes hb
  rw [hlena, hlenb] at h2 ⊢
  rw [← polymul_eq_convolution b (hlena.symm ▸ h0.1)]
  exact ⟨_, exec_polyMul_of_ok hc (polyMulPlan_eq_ok.mpr ⟨h0, h1, h2, rfl⟩) ha hb,
    storesExactly_writeBytes s.dmem (destAddr c.arg2) (polymul a b)⟩

/-- Settles O28: the remainder of synthetic division. -/
theorem polyModCompletes : Obligations.PolyModCompletes := by
  intro s c p d hc h0 h1 h2 hp hd hmonic
  have hlend : d.length = (sourceSpan c.arg1).len := Memory.length_readBytes hd
  have hhead : ¬ d.headD 0 ≠ 1 := by
    obtain ⟨t, rfl⟩ := List.head?_eq_some_iff.mp hmonic
    exact not_not_intro rfl
  rw [hlend] at h2 ⊢
  exact ⟨_, _, isRemainder_polymod hmonic p,
    (exec_polyMod_of_ok hc (polyModPlan_eq_ok.mpr ⟨h0, h1, h2, rfl⟩) hp hd).trans (if_neg hhead),
    storesExactly_writeBytes s.dmem (destAddr c.arg2) (polymod p d)⟩

/-- Settles O33: correct caches give gen(N), and the results are stored at their place. -/
theorem reedSolomonCommandsComplete : Obligations.ReedSolomonCommandsComplete := by
  intro s c n hc hcaches hn hn'
  refine ⟨fun h2 => ⟨_, _, exec_rsGen_of_ok hc hcaches (rsGenPlan_eq_ok.mpr ⟨⟨hn, hn'⟩, h2, rfl⟩),
    storesExactly_writeBytes s.dmem (destAddr c.arg2) (gen n.toNat)⟩, fun data h0 h2 hdata => ⟨_, _,
    exec_rsEcc_of_ok hc hcaches (rsEccPlan_eq_ok.mpr ⟨⟨hn, hn'⟩, h0, h2, rfl⟩) hdata,
    storesExactly_writeBytes s.dmem (destAddr c.arg2) (ecc data n.toNat)⟩⟩

/-- Settles O39: the source passes, fits and is written. -/
theorem placeCompletes : Obligations.PlaceCompletes := by
  intro s c bs hc hphase h0 hbs hroom
  have hlen : bs.length = (sourceSpan c.arg0).len := Memory.length_readBytes hbs
  rw [hlen] at hroom ⊢
  exact (exec_place_of_sourceOk hc hphase h0).trans ((if_neg hroom.not_gt).trans (State.readSource_of_some hbs))

/-! ## Errors in order (R257) -/

/-- Settles O29: the plan's checks in order. -/
theorem polyMulOperandErrorsInOrder : Obligations.PolyMulOperandErrorsInOrder := by
  intro s c hc
  refine ⟨fun h => ?_, fun hlen h => ?_, fun h0 h => ?_, fun h0 hlen h => ?_, fun h0 h1 h => ?_⟩
  · exact exec_polyMul_of_error hc (error_bind (checkSource_of_short h 0))
  · exact exec_polyMul_of_error hc (error_bind (checkSource_of_outside hlen h 0))
  · exact exec_polyMul_of_error hc ((ok_bind (checkSource_of_ok h0 0)).trans (error_bind (checkSource_of_short h 1)))
  · exact exec_polyMul_of_error hc
      ((ok_bind (checkSource_of_ok h0 0)).trans (error_bind (checkSource_of_outside hlen h 1)))
  · exact exec_polyMul_of_error hc ((ok_bind (checkSource_of_ok h0 0)).trans
      ((ok_bind (checkSource_of_ok h1 1)).trans (error_bind (checkDest_of_outside h))))

/-- Settles O30: the plan's checks in order, and the divisor's coefficient after the reads. -/
theorem polyModOperandErrorsInOrder : Obligations.PolyModOperandErrorsInOrder := by
  intro s c hc
  refine ⟨fun h => ?_, fun h0 h => ?_, fun h0 hlen h => ?_, fun h0 h1 h => ?_, fun p d x h0 h1 h2 hp hd hx hne => ?_⟩
  · exact exec_polyMod_of_error hc (error_bind (checkSource_of_outside (Nat.zero_le _) h 0))
  · exact exec_polyMod_of_error hc ((ok_bind (checkSource_of_ok h0 0)).trans (error_bind (checkSource_of_short h 1)))
  · exact exec_polyMod_of_error hc
      ((ok_bind (checkSource_of_ok h0 0)).trans (error_bind (checkSource_of_outside hlen h 1)))
  · exact exec_polyMod_of_error hc ((ok_bind (checkSource_of_ok h0 0)).trans
      ((ok_bind (checkSource_of_ok h1 1)).trans (error_bind (checkDest_of_outside h))))
  · have hlend : d.length = (sourceSpan c.arg1).len := Memory.length_readBytes hd
    have hhead : d.headD 0 = x := by
      obtain ⟨t, rfl⟩ := List.head?_eq_some_iff.mp hx
      rfl
    rw [hlend] at h2
    rw [exec_polyMod_of_ok hc (polyModPlan_eq_ok.mpr ⟨h0, h1, h2, rfl⟩) hp hd, hhead, if_pos hne]

/-- Settles O34: the plans' checks in order. -/
theorem reedSolomonErrorsInOrder : Obligations.ReedSolomonErrorsInOrder := by
  intro s c n hc
  refine ⟨fun h => ⟨?_, ?_⟩, fun hn hn' => ⟨fun h => ?_, fun h => ?_, fun h0 h => ?_⟩⟩
  · exact exec_rsGen_of_error hc (error_bind (checkDegree_of_outside h))
  · exact exec_rsEcc_of_error hc (error_bind (checkDegree_of_outside h))
  · exact exec_rsGen_of_error hc ((ok_bind (checkDegree_of_ok hn hn')).trans (checkDest_of_outside h))
  · exact exec_rsEcc_of_error hc ((ok_bind (checkDegree_of_ok hn hn')).trans
      (error_bind (checkSource_of_outside (Nat.zero_le _) h 0)))
  · exact exec_rsEcc_of_error hc ((ok_bind (checkDegree_of_ok hn hn')).trans
      ((ok_bind (checkSource_of_ok h0 0)).trans (error_bind (checkDest_of_outside h))))

/-- Settles O40: the phase, the source, then the room for it. -/
theorem placeErrorsInOrder : Obligations.PlaceErrorsInOrder := by
  intro s c hc
  refine ⟨exec_place_of_phase hc, fun hphase h => ?_, fun hphase h0 hroom => ?_⟩
  · exact exec_place_of_error hc hphase (checkSource_of_outside (Nat.zero_le _) h 0)
  · exact (exec_place_of_sourceOk hc hphase h0).trans (if_pos hroom)

/-! ## Unwritten bytes (R68) -/

/-- Settles O18: a source with an unwritten byte reads as none, and every reader then faults. -/
theorem unwrittenByteFaults : Obligations.UnwrittenByteFaults := by
  intro s c rest
  refine ⟨fun a n j hn ha hlt hj hread hnone hq => ?_, fun hc h0 h1 h2 hsrc => ?_, fun hc h0 h1 h2 hsrc => ?_,
    fun n hc hn hn' h0 h2 hsrc => ?_, fun hc hphase h0 hroom hsrc => ?_⟩
  · exact (MemoryAccess.step_of_dmemRead hn ha hlt hnone hq).trans (readSource_of_none (readBytes_eq_none hj hread) _)
  · exact exec_polyMul_of_unwritten hc (polyMulPlan_eq_ok.mpr ⟨h0, h1, h2, rfl⟩) hsrc
  · exact exec_polyMod_of_unwritten hc (polyModPlan_eq_ok.mpr ⟨h0, h1, h2, rfl⟩) hsrc
  · exact exec_rsEcc_of_unwritten hc (rsEccPlan_eq_ok.mpr ⟨⟨hn, hn'⟩, h0, h2, rfl⟩) hsrc
  · exact (exec_place_of_sourceOk hc hphase h0).trans ((if_neg hroom.not_gt).trans (readSource_of_none hsrc _))

end Sys2Proof.DmemCommands
end

section
/-! PROOF. TPL.LOAD (R175 of 42_template.md), the format write (R225) and the mask commands (R219, R227 to R229 of 44_mask.md). -/

namespace Sys2Proof.SymbolCommands

open Sys2Proof Sys2Proof.Machine Sys2Proof.CorrectCaches Sys2Proof.CommandEffects Sys2Proof.Invariant
open Sys2Proof.TemplateBuild Sys2Proof.PlacementRoundTrip Sys2Proof.ReservedBits

/-! ## TPL.LOAD -/

/-- Settles O36: correct caches give the template. -/
theorem tplLoadCompletes : Obligations.TplLoadCompletes := by
  intro s c ver lvl hc hcaches h1 h40 hlvl
  refine ⟨cachePublish s.tplCache ver.toNat (template ver.toNat), (State.withCommand_of_some hc).trans ?_⟩
  rw [if_neg (by omega), if_neg hlvl.not_gt, prototype_of_cachesCorrect hcaches, BitVec.ofNat_toNat, BitVec.ofNat_toNat]
  rfl

/-- Settles O37: the version's test comes before the level's. -/
theorem tplLoadErrorsInOrder : Obligations.TplLoadErrorsInOrder := by
  intro s c ver lvl hc
  refine ⟨fun h => (State.withCommand_of_some hc).trans ?_, fun h1 h40 h => (State.withCommand_of_some hc).trans ?_⟩
  · exact if_pos (by omega)
  · exact (if_neg (by omega)).trans (if_pos h)

/-! ## The format write (R225) -/

/-- A map that leaves the cell at (r, c) leaves it, inside the matrix and outside. -/
theorem cell_mapCells_of_fixed {m : Matrix} {f : Nat → Nat → Cell → Cell} {r c : Nat} (hf : ∀ x, f r c x = x) :
    (m.mapCells f).cell r c = m.cell r c := by
  unfold Matrix.cell Matrix.mapCells
  cases hr : m[r]? with
  | none => simp [hr]
  | some row => cases hc : row[c]? <;> simp [hr, hc, hf]

/-- The modules of the two copies are 30 different cells (R166). -/
theorem formatCell_unique {w r c i j : Nat} (hw : 21 ≤ w) (hi : i < 15) (hj : j < 15)
    (h : formatCellA i = (r, c) ∨ formatCellB w i = (r, c)) (h' : formatCellA j = (r, c) ∨ formatCellB w j = (r, c)) :
    i = j := by
  unfold formatCellA formatCellB at h h'
  split_ifs at h h' <;> simp only [Prod.mk.injEq] at h h' <;> omega

theorem formatBitAt_eq_some {w r c i : Nat} (hw : 21 ≤ w) (hi : i < 15)
    (h : formatCellA i = (r, c) ∨ formatCellB w i = (r, c)) : formatBitAt w r c = some i := by
  refine (find?_eq_some_iff_of_unique fun j hj k hk hpj hpk => ?_).mpr ⟨List.mem_range.mpr hi, by simpa using h⟩
  exact formatCell_unique hw (List.mem_range.mp hj) (List.mem_range.mp hk) (by simpa using hpj) (by simpa using hpk)

theorem formatBitAt_eq_none {w r c : Nat} (hw : 21 ≤ w) (hA : (r, c) ∉ formatCellsA) (hB : (r, c) ∉ formatCellsB w) :
    formatBitAt w r c = none := by
  rw [formatCellsA_eq_map, List.mem_map] at hA
  rw [formatCellsB_eq_map hw, List.mem_map] at hB
  refine List.find?_eq_none.mpr fun i hi hp => ?_
  rcases Bool.or_eq_true_iff.mp hp with h | h
  · exact hA ⟨i, hi, eq_of_beq h⟩
  · exact hB ⟨i, hi, eq_of_beq h⟩

theorem formatCellsA_getD {i : Nat} (hi : i < 15) : formatCellsA.getD i (0, 0) = formatCellA i := by
  simp [formatCellsA_eq_map, hi]

theorem formatCellsB_getD {w i : Nat} (hw : 21 ≤ w) (hi : i < 15) :
    (formatCellsB w).getD i (0, 0) = formatCellB w i := by
  simp [formatCellsB_eq_map hw, hi]

theorem formatCellA_lt {w i : Nat} (hw : 21 ≤ w) : (formatCellA i).1 < w ∧ (formatCellA i).2 < w := by
  unfold formatCellA
  split_ifs <;> constructor <;> simp only <;> omega

theorem formatCellB_lt {w i : Nat} (hw : 21 ≤ w) (hi : i < 15) : (formatCellB w i).1 < w ∧ (formatCellB w i).2 < w := by
  unfold formatCellB
  split_ifs <;> constructor <;> simp only <;> omega

section
variable {m : Matrix} {w r c : Nat} (hsq : m.Square w) (hr : r < w) (hc : c < w) (fw : BitVec 15)
include hsq hr hc

theorem dark_writeFormat_of_bit {i : Nat} (h : formatBitAt w r c = some i) :
    ((writeFormat w fw m).cell r c).dark = fw.getLsbD i := by
  rw [writeFormat, cell_mapCells_of_square hsq hr hc, h]

theorem dark_writeFormat_of_darkModule (h : formatBitAt w r c = none) (hdark : (r, c) = darkModuleCell w) :
    ((writeFormat w fw m).cell r c).dark = true := by
  rw [writeFormat, cell_mapCells_of_square hsq hr hc, h]
  exact congrArg Cell.dark (if_pos hdark)

end

theorem rsv_writeFormat (w : Nat) (fw : BitVec 15) (m : Matrix) (r c : Nat) :
    ((writeFormat w fw m).cell r c).rsv = (m.cell r c).rsv := by
  refine Matrix.cell_mapCells_rsv (fun r c x => ?_) r c
  cases formatBitAt w r c with
  | some i => rfl
  | none => exact (apply_ite Cell.rsv ..).trans (ite_self _)

theorem cell_writeFormat_of_other {w r c : Nat} (fw : BitVec 15) (m : Matrix) (h : formatBitAt w r c = none)
    (hdark : (r, c) ≠ darkModuleCell w) : (writeFormat w fw m).cell r c = m.cell r c := by
  refine cell_mapCells_of_fixed fun x => ?_
  rw [h]
  exact if_neg hdark

theorem formatBitAt_darkModule {w : Nat} (hw : 21 ≤ w) : formatBitAt w (w - 8) 8 = none := by
  refine formatBitAt_eq_none hw ?_ ?_ <;> simp [formatCellsA, formatCellsB] <;> omega

/-- Settles O46: a module of a copy is no other bit's, and the dark module is none of them. -/
theorem formatWriteCells : Obligations.FormatWriteCells := by
  intro m w fw hw hsq
  refine ⟨fun i hi => ?_, ?_, rsv_writeFormat w fw m, fun r c hA hB hdark => ?_⟩
  · obtain ⟨hAr, hAc⟩ := formatCellA_lt (i := i) hw
    obtain ⟨hBr, hBc⟩ := formatCellB_lt hw hi
    simp only [formatCellsA_getD hi, formatCellsB_getD hw hi]
    exact ⟨dark_writeFormat_of_bit hsq hAr hAc fw (formatBitAt_eq_some hw hi (.inl rfl)),
      dark_writeFormat_of_bit hsq hBr hBc fw (formatBitAt_eq_some hw hi (.inr rfl))⟩
  · exact dark_writeFormat_of_darkModule hsq (by omega) (by omega) fw (formatBitAt_darkModule hw) rfl
  · exact cell_writeFormat_of_other fw m (formatBitAt_eq_none hw hA hB) hdark

/-! ## The winner (R219) -/

/-- `k` has the least score of `l`, and is the first such mask (R219). -/
def WinsIn (score : Vector Word 8) (l : List (BitVec 3)) (k : BitVec 3) : Prop :=
  ∀ j ∈ l, perMask score k ≤ perMask score j ∧ (j < k → perMask score k < perMask score j)

/-- Walking up from `best` with "strictly lower replaces" ends at the least score, and at its first place. -/
theorem foldl_best (score : Vector Word 8) (l : List (BitVec 3)) (best : BitVec 3) (h : (best :: l).Pairwise (· < ·)) :
    WinsIn score (best :: l)
      (l.foldl (fun best k => if perMask score k < perMask score best then k else best) best) := by
  induction l generalizing best with
  | nil =>
    intro j hj
    cases List.mem_singleton.mp hj
    exact ⟨BitVec.le_refl _, fun hlt => absurd hlt (BitVec.lt_irrefl _)⟩
  | cons k l ih =>
    obtain ⟨hbest, htail⟩ := List.pairwise_cons.mp h
    rw [List.foldl_cons]
    by_cases hlt : perMask score k < perMask score best
    · rw [if_pos hlt]
      have hwin := ih k htail
      refine List.forall_mem_cons.mpr ⟨?_, hwin⟩
      have hle := (hwin k List.mem_cons_self).1
      exact ⟨BitVec.le_trans hle (BitVec.le_of_lt hlt), fun _ => Nat.lt_of_le_of_lt hle hlt⟩
    · rw [if_neg hlt]
      have hwin := ih best (h.sublist (.cons_cons _ (List.sublist_cons_self k l)))
      obtain ⟨hwinBest, hwinTail⟩ := List.forall_mem_cons.mp hwin
      have hkeep := BitVec.not_lt.mp hlt
      refine List.forall_mem_cons.mpr ⟨hwinBest, List.forall_mem_cons.mpr ⟨⟨BitVec.le_trans hwinBest.1 hkeep, ?_⟩, hwinTail⟩⟩
      exact fun hk => Nat.lt_of_lt_of_le (hwinBest.2 (BitVec.lt_trans (hbest k List.mem_cons_self) hk)) hkeep

theorem bestMask_wins (score : Vector Word 8) (k : BitVec 3) : perMask score (bestMask score) ≤ perMask score k ∧
    (k < bestMask score → perMask score (bestMask score) < perMask score k) := by
  have hall : ∀ k : BitVec 3, k ∈ [0, 1, 2, 3, 4, 5, 6, 7] := by decide
  exact foldl_best score [1, 2, 3, 4, 5, 6, 7] 0 (by decide) k (hall k)

/-! ## The mask commands -/

section
variable {s : State} {c : InFlight} (hc : s.inFlight = some c) (hphase : s.phase = .placed)
include hc hphase

theorem exec_maskScore (k : BitVec 3) : exec (.maskScore k) s = .next (scoreMask s k).finish :=
  (State.withCommand_of_some hc).trans (if_neg (not_not_intro hphase))

theorem exec_maskOpt : exec .maskOpt s = .next (applyBestMask s (forEachMask s.candidatePenalty)
    (forEachMask fun k => (perMask (forEachMask s.candidatePenalty) k).total)
    (bestMask (forEachMask fun k => (perMask (forEachMask s.candidatePenalty) k).total))).finish :=
  (State.withCommand_of_some hc).trans (if_neg (not_not_intro hphase))

theorem exec_maskForce (k : BitVec 3) : exec (.maskForce k) s = .next (forceMask s k).finish :=
  (State.withCommand_of_some hc).trans (if_neg (not_not_intro hphase))

end

/-- Settles O48: only mask K's registers are set. -/
theorem maskScoreCompletes : Obligations.MaskScoreCompletes := by
  intro s c k hc hphase
  refine ⟨_, _, exec_maskScore hc hphase k, ?_, ?_, fun j hj => ⟨?_, ?_⟩⟩
  · exact (perMask_setPerMask ..).trans (if_pos rfl)
  · exact (perMask_setPerMask ..).trans (if_pos rfl)
  · exact (perMask_setPerMask ..).trans (if_neg hj)
  · exact (perMask_setPerMask ..).trans (if_neg hj)

/-- Settles O49: all candidates are scored and the winner is applied. -/
theorem maskOptCompletes : Obligations.MaskOptCompletes := by
  intro s c hc hphase
  refine ⟨_, _, _, (exec_maskOpt hc hphase).trans ?_, fun k => ⟨perMask_forEachMask _ k, perMask_forEachMask _ k⟩,
    fun k => (bestMask_wins _ k).1, fun k => (bestMask_wins _ k).2⟩
  rw [BitVec.ofNat_toNat, word, BitVec.ofNat_toNat]
  rfl

/-- Settles O50: mask K is applied. -/
theorem maskForceCompletes : Obligations.MaskForceCompletes := by
  intro s c k hc hphase fw
  rw [exec_maskForce hc hphase k, BitVec.ofNat_toNat, word, word, BitVec.ofNat_toNat, BitVec.ofNat_toNat]
  rfl

/-- Settles O51: the phase's test comes first. -/
theorem maskCommandsNeedPlacedPhase : Obligations.MaskCommandsNeedPlacedPhase :=
  fun _ _ hc hphase => ⟨fun _ => (State.withCommand_of_some hc).trans (if_pos hphase),
    (State.withCommand_of_some hc).trans (if_pos hphase), fun _ => (State.withCommand_of_some hc).trans (if_pos hphase)⟩

end Sys2Proof.SymbolCommands
end

section
/-! PROOF. Soft reset and DMEM (R66, R281): what an abort unwrites is what the aborted command would have written. -/

namespace Sys2Proof.SoftReset

open Sys2Proof Sys2Proof.Machine Sys2Proof.OperandChecks Sys2Proof.CommandEffects Sys2Proof.Steps

/-! ## The abort -/

theorem abortedSpan_of_idle {s : State} (h : s.inFlight = none) : s.abortedSpan = none := by
  rw [State.abortedSpan, h]

theorem abortedSpan_of_illegal {s : State} {c : InFlight} {e : IllegalCommand} (hc : s.inFlight = some c)
    (h : decode c.word = .error e) : s.abortedSpan = none := by
  simp only [State.abortedSpan, hc, h]

theorem abortedSpan_of_legal {s : State} {c : InFlight} {i : Instr} (hc : s.inFlight = some c)
    (h : decode c.word = .ok i) : s.abortedSpan = destinationOf s c i := by
  simp only [State.abortedSpan, hc, h]

theorem dmem_softReset_of_none {s : State} (h : s.abortedSpan = none) : s.softReset.dmem = s.dmem := by
  rw [State.softReset, h]
  rfl

theorem dmem_softReset_of_some {s : State} {sp : Span} (h : s.abortedSpan = some sp) :
    s.softReset.dmem = s.dmem.eraseBytes sp.addr sp.len := by
  rw [State.softReset, h]

/-- A command's destination depends on its latched operands and DMEM. -/
theorem destinationOf_waited (s : State) (rest : List HostAccess) (c : InFlight) (d : Nat) (i : Instr) :
    destinationOf (waited s rest) { c with delay := d } i = destinationOf s c i := by
  cases i <;> rfl

/-- The host's access leaves the command in flight, one host step nearer. -/
theorem inFlight_waited {s : State} {c : InFlight} (hc : s.inFlight = some c) (rest : List HostAccess) :
    (waited s rest).inFlight = some { c with delay := c.delay - 1 } := by
  rw [waited, hc]
  rfl

theorem step_of_softReset {s : State} {v : Word} {rest : List HostAccess}
    (h : HostMovesNext s (.write 0x004 4 v) rest) (hv : v.getLsbD 1 = true) :
    step s = .next { State.reset with
        dmem := (waited s rest).softReset.dmem
        hostQueue := rest
        readData := s.readData
        latencyIndex := s.latencyIndex } := by
  have hctrl : (waited s rest).writeCtrl v = (waited s rest).softReset := if_pos hv
  obtain ⟨m, hreset, -⟩ := softReset_eq (waited s rest)
  refine (step_of_hostMovesNext h).trans ?_
  refine congrArg Host.Outcome.next (hctrl.trans ?_)
  rw [hreset]
  rfl

/-! ## The destination -/

section
variable (s : State) {c : InFlight}

theorem destinationOf_polyMul (h0 : SourceOk 1 c.arg0) (h1 : SourceOk 1 c.arg1)
    (h2 : DestOk ((sourceSpan c.arg0).len + (sourceSpan c.arg1).len - 1) c.arg2) :
    destinationOf s c .polyMul = some (polyMulSpans c).dst := by
  rw [destinationOf, polyMulPlan_eq_ok.mpr ⟨h0, h1, h2, rfl⟩]
  rfl

theorem destinationOf_rsGen {n : BitVec 8} (hn : 1 ≤ n.toNat ∧ n.toNat ≤ Config.rsMaxDegree)
    (h2 : DestOk (n.toNat + 1) c.arg2) : destinationOf s c (.rsGen n) = some ⟨destAddr c.arg2, n.toNat + 1⟩ := by
  rw [destinationOf, rsGenPlan_eq_ok.mpr ⟨hn, h2, rfl⟩]
  rfl

theorem destinationOf_rsEcc {n : BitVec 8} (hn : 1 ≤ n.toNat ∧ n.toNat ≤ Config.rsMaxDegree)
    (h0 : SourceOk 0 c.arg0) (h2 : DestOk n.toNat c.arg2) :
    destinationOf s c (.rsEcc n) = some ⟨destAddr c.arg2, n.toNat⟩ := by
  rw [destinationOf, rsEccPlan_eq_ok.mpr ⟨hn, h0, h2, rfl⟩]
  rfl

end

/-! ## A completion -/

/-- A completion of a command without a destination keeps DMEM, one with a destination writes all of it and nothing else. -/
theorem dmem_of_exec {s t : State} {c : InFlight} {i : Instr} (hs : CachesCorrect s) (hc : s.inFlight = some c)
    (h : exec i s = .next t) : (destinationOf s c i = none ∧ t.dmem = s.dmem) ∨
      ∃ sp bs, destinationOf s c i = some sp ∧ bs.length = sp.len ∧ t.dmem = s.dmem.writeBytes sp.addr bs := by
  obtain ⟨c', hc', hans⟩ := exec_eq_next h
  cases Option.some.inj (hc.symm.trans hc')
  obtain ⟨e, -, hnone, rfl⟩ | ⟨u, hu, rfl⟩ := hans
  · exact .inl ⟨hnone, rfl⟩
  · exact (Invariant.dmem_of_effects hs hu).imp_right fun ⟨sp, bs, hsp, hlen, hdmem⟩ => ⟨sp, bs, hsp.1, hlen, hdmem⟩

theorem read_writeBytes_in_and_out {m : Memory} {a n a' : Nat} {bs : List Byte} (hlen : bs.length = n) :
    if a ≤ a' ∧ a' < a + n then (m.writeBytes a bs).read a' ≠ none else (m.writeBytes a bs).read a' = m.read a' := by
  subst hlen
  split_ifs with h
  · obtain ⟨j, rfl⟩ := Nat.exists_eq_add_of_le h.1
    have hj : j < bs.length := by omega
    rw [Memory.read_writeBytes hj, List.getElem?_eq_getElem hj]
    exact Option.some_ne_none _
  · exact Memory.read_writeBytes_other (by omega)

/-- Settles O10: the aborted command's destination is the one its completion would write. -/
theorem softResetKeepsDmemButAbortedBytes : Obligations.SoftResetKeepsDmemButAbortedBytes := by
  refine ⟨fun s v rest h hv hwf => ⟨_, step_of_softReset h hv, fun hc => ?_, fun c e hc he => ?_, fun c i hc hi a => ?_⟩,
    fun s c => ⟨destinationOf_polyMul s, fun h0 h1 h2 hlead => ?_, fun n hn hn' =>
      ⟨destinationOf_rsGen s ⟨hn, hn'⟩, destinationOf_rsEcc s ⟨hn, hn'⟩⟩⟩,
    fun s t c i hs hc h => ?_⟩
  · refine dmem_softReset_of_none (abortedSpan_of_idle ?_)
    rw [waited, hc]
    rfl
  · exact dmem_softReset_of_none (abortedSpan_of_illegal (inFlight_waited hc rest) he)
  · have hspan := (abortedSpan_of_legal (inFlight_waited hc rest) hi).trans (destinationOf_waited s rest c _ i)
    cases hdst : destinationOf s c i with
    | none => exact congrArg (·.read a) (dmem_softReset_of_none (hspan.trans hdst))
    | some sp =>
      rw [dmem_softReset_of_some (hspan.trans hdst)]
      exact Memory.read_eraseBytes hwf
  · exact (destinationOf_polyMod (polyModPlan_eq_ok.mpr ⟨h0, h1, h2, rfl⟩)).trans (if_pos hlead)
  · obtain ⟨hnone, hdmem⟩ | ⟨sp, bs, hsp, hlen, hdmem⟩ := dmem_of_exec hs hc h
    · rw [hnone]
      exact hdmem
    · rw [hsp, hdmem]
      exact fun a => read_writeBytes_in_and_out hlen

end Sys2Proof.SoftReset
end
